-- ==== Sys2Proof/Word.lean ====
section
/-! DEFINITION. The byte of the host link, the monitor line and the record store. -/

namespace Sys2Proof

/-- One byte, eight data bits (R119, R194). -/
abbrev Byte := BitVec 8

end Sys2Proof
end

