-- ==== Sys2Proof/Config.lean ====
section
/-! DEFINITION. What the spec leaves open: free values without a body. -/

namespace Sys2Proof

/-- Two things of one event that the spec lets be taken in either order (R15, R65): `true` takes
station A's first. Applied to the counter `State.races`. Free value, log entry 8. -/
opaque Config.raceFirst : Nat → Bool

/-- Which of the three steps of R181 (0 ERASE, 1 RECORDS, 2 HEADER) a segment write has reached when
READ_STORE looks, where an earlier look at the same write has shown no later one: no command of the table moves a
write from step to step. Applied to the counter `State.storeLooks`. Free value, log entry 19. -/
opaque Config.storeStep : Nat → Fin 3

end Sys2Proof
end

