-- ==== Sys2Proof/Syntax.lean ====
section
/-! DEFINITION. The commands of the DPC-262: one constructor per row of spec/opcode_table.json. -/

namespace Sys2Proof

/-- The two stations. -/
inductive Station
  | A
  | B
deriving DecidableEq, Repr

/-- The steps of a segment write (R181). -/
inductive WriteStep
  | erase
  | records
  | header
deriving DecidableEq, Repr

/-- The eight bytes that follow the sync byte of a monitor frame (R204). -/
structure MonitorFrame where
  station : Byte
  tower   : Byte
  ratioHi : Byte
  ratioLo : Byte
  phaseHi : Byte
  phaseLo : Byte
  flags   : Byte
  check   : Byte
deriving DecidableEq, Repr

/-- The commands. Each carries `dt`, the time in ms since the command before it (log entry 1). A host
request stands for the arrival of a complete, checked frame with its request code and carries the
frame's field bytes (R194, R195). -/
inductive Instr
  /-- `vkeep`: VKEEP held through the loss of main power (R138); `lbr`: the rate straps (R194). -/
  | powerOnReset (dt : Nat) (vkeep : Bool) (lbr : BitVec 3)
  | externalReset (dt : Nat) (lbr : BitVec 3)
  | storeStartupEnd (dt : Nat)
  /-- `contacts`: for each place from 0, whether contact 1 and contact 2 are closed; a place not
  listed reads both open (R8). `order`: rows whose changes are taken first (log entry 9). -/
  | feedbackScan (dt : Nat) (contacts : List (Bool × Bool)) (order : List (Fin 48))
  | carrierChangeAccepted (dt : Nat) (st : Station) (on : Bool)
  | coilDriveEnd (dt : Nat) (c : Fin 48)
  | travelLimitRetry (dt : Nat) (c : Fin 48)
  | travelLimitStuck (dt : Nat) (c : Fin 48)
  | carrierOffWaitExpiry (dt : Nat) (st : Station)
  | holdLimitExpiry (dt : Nat) (st : Station)
  | breachWaitExpiry (dt : Nat) (st : Station)
  | settleExpiry (dt : Nat) (st : Station)
  | verifyTimeout (dt : Nat) (st : Station)
  | monitorFrame (dt : Nat) (frame : MonitorFrame)
  | monitorFrameGap (dt : Nat)
  /-- `tower`: tower number less one. -/
  | silenceExpiry (dt : Nat) (st : Station) (tower : Fin 8)
  | trefPulse (dt : Nat)
  | trefMissingPulse (dt : Nat)
  | trefLost (dt : Nat)
  | internalBoundary (dt : Nat)
  | clockSourceAbsentAtStart (dt : Nat)
  | segmentWriteDone (dt : Nat)
  | markerWriteDone (dt : Nat)
  | writeFault (dt : Nat) (step : WriteStep)
  | hostFrameDiscard (dt : Nat)
  | hostFrameTimeout (dt : Nat)
  | unknownRequest (dt : Nat) (code : Byte) (fields : List Byte)
  | responseSent (dt : Nat)
  | lockOutExpiry (dt : Nat)
  | lookup (dt : Nat) (fields : List Byte)
  | lookupNext (dt : Nat) (fields : List Byte)
  | readStation (dt : Nat) (fields : List Byte)
  | readTransition (dt : Nat) (fields : List Byte)
  | readContactor (dt : Nat) (fields : List Byte)
  | readReadings (dt : Nat) (fields : List Byte)
  | readClock (dt : Nat) (fields : List Byte)
  | readStore (dt : Nat) (fields : List Byte)
  | readHolds (dt : Nat) (fields : List Byte)
  | stage (dt : Nat) (fields : List Byte)
  | amend (dt : Nat) (fields : List Byte)
  | retire (dt : Nat) (fields : List Byte)
  | discard (dt : Nat) (fields : List Byte)
  | discardAll (dt : Nat) (fields : List Byte)
  | commit (dt : Nat) (fields : List Byte)
  | setClock (dt : Nat) (fields : List Byte)
  | resetCounters (dt : Nat) (fields : List Byte)
  | clearContactorFault (dt : Nat) (fields : List Byte)
  | transition (dt : Nat) (fields : List Byte)
  | abort (dt : Nat) (fields : List Byte)
  | continueHeld (dt : Nat) (fields : List Byte)
  | setHold (dt : Nat) (fields : List Byte)
  | clearHold (dt : Nat) (fields : List Byte)
  | carrierHold (dt : Nat) (fields : List Byte)
  | carrierRelease (dt : Nat) (fields : List Byte)
  | manualMove (dt : Nat) (fields : List Byte)
  | suspendSchedule (dt : Nat) (fields : List Byte)
  | resumeSchedule (dt : Nat) (fields : List Byte)
  | saveCounters (dt : Nat) (fields : List Byte)
  | presentCode (dt : Nat) (fields : List Byte)
  | revoke (dt : Nat) (fields : List Byte)
  | readAttention (dt : Nat) (fields : List Byte)
  | clearAttention (dt : Nat) (fields : List Byte)
  | maskAttention (dt : Nat) (fields : List Byte)
  /-- `byte`: the byte received, or `none` for a character error (R119). -/
  | monitorByteReceived (dt : Nat) (byte : Option Byte)
  /-- `byte`: the byte received, or `none` for a character error (R194). -/
  | hostByteReceived (dt : Nat) (byte : Option Byte)
deriving DecidableEq, Repr

end Sys2Proof
end

