-- ==== Sys2Proof/Machine/Types.lean ====
section
/-! DEFINITION. The records and tables that State is made of. -/

namespace Sys2Proof.Machine

/-- A value for each station. -/
structure Both (α : Type) where
  a : α
  b : α
deriving DecidableEq, Repr

/-- A set of stations. -/
abbrev StationSet := Both Bool

/-- The position of a contactor (Conventions). -/
inductive Position
  | one
  | two
deriving DecidableEq, Repr

/-- The path of a configured contactor: {A}, {B} or {A,B} (R1). -/
inductive Path
  | a
  | b
  | ab
deriving DecidableEq, Repr

/-- The reading of a contactor's two contacts (R8). -/
inductive Sensed
  | at1
  | at2
  | between
  | conflict
deriving DecidableEq, Repr

/-- The owner of a contactor's claim (R6, R15). -/
inductive Claim
  | none
  | tu (st : Station)
  | manual
deriving DecidableEq, Repr

/-- The health of a contactor (R17). -/
inductive Condition
  | normal
  | slow
  | stuck
  | conflict
  | drifted
deriving DecidableEq, Repr

/-- One row of the contactor table (R6), with the candidate reading of R9, the recorded release of R16
and the hot mark of R98. A row without a path is not configured. -/
structure Row where
  path : Option Path
  sensed : Sensed
  candidate : Option Sensed
  commanded : Option Position
  claim : Claim
  releaseDue : Bool
  condition : Condition
  lastTravel : Option Nat
  operations : Nat
  hotMoves : Nat
  maintenance : Bool
  hotMark : StationSet
deriving DecidableEq, Repr

/-! ### Records (R1, R24, R145) -/

/-- One setting: a contactor and the position it is to stand at (R24). -/
structure Setting where
  contactor : Fin 48
  position : Position
deriving DecidableEq, Repr

/-- One monitor window (R24). `tower` is the tower number less one. -/
structure Window where
  tower : Fin 8
  ratioLow : Nat
  ratioHigh : Nat
  centre : Int
  halfWidth : Nat
deriving DecidableEq, Repr

/-- The fields of an ACTIVE pattern (R24) but for the version, which is not staged content (R29). -/
structure Pattern where
  station : Station
  label : List Byte
  powerStep : Nat
  stages : List (List Setting)
  windows : List Window
  settle : Nat
  fallback : Option (Fin 32)
deriving DecidableEq, Repr

/-- An ACTIVE pattern with its version (R24, R29). -/
structure Versioned where
  pattern : Pattern
  version : Nat
deriving DecidableEq, Repr

/-- A schedule entry that is not VACANT (R145). -/
structure Entry where
  enabled : Bool
  station : Station
  firstDay : Nat
  lastDay : Nat
  minute : Nat
  target : Fin 32
  precedence : Nat
deriving DecidableEq, Repr

/-- The site record but for the site code (R1). `config` gives each contactor's path, or that it is not
configured; tower n of a station is bit n − 1 of its set. -/
structure Site where
  config : Vector (Option Path) 48
  towers : Both Byte
  coilPulse : Nat
  travelLimit : Nat
  slowThreshold : Nat
  concurrency : Nat
  carrierOffWait : Nat
  toleranceRun : Nat
  silenceLimit : Nat
  holdLimit : Nat
  maintenance : Nat
deriving DecidableEq, Repr

/-- The three forms of the site code in a staged site record (R3). -/
inductive CodeForm
  | absent
  | set (code : List Byte)
  | removal
deriving DecidableEq, Repr

/-- The working tables (R1, R23, R145): VACANT is `none`; `code` is the site code, if one is set. -/
structure Tables where
  patterns : Vector (Option Versioned) 32
  schedule : Vector (Option Entry) 64
  site : Site
  code : Option (List Byte)
deriving DecidableEq, Repr

/-! ### Staging (R159 to R169) -/

/-- The identity of a record: its kind and index (R159). -/
inductive RecordId
  | pattern (slot : Fin 32)
  | schedule (entry : Fin 64)
  | site
deriving DecidableEq, Repr

/-- The kind of a record as a request names it. -/
inductive Kind
  | pattern
  | schedule
  | site
deriving DecidableEq, Repr

inductive View
  | stagedFirst
  | committed
deriving DecidableEq, Repr

/-- An entry of the staging queue: the record and its action, REPLACE with the content or RETIRE. -/
inductive StagedEntry
  | pattern (slot : Fin 32) (content : Option Pattern)
  | schedule (entry : Fin 64) (content : Option Entry)
  | site (content : Site) (code : CodeForm)
deriving DecidableEq, Repr

/-- A running commit: the commit-in-progress set, `true` for a RETIRE, and the versions fixed at
acceptance (R169). -/
structure CommitRun where
  carried : List (RecordId × Bool)
  versions : List (Fin 32 × Nat)
deriving DecidableEq, Repr

/-- The lookup cursor (R167). -/
structure Cursor where
  record : RecordId
  view : View
deriving DecidableEq, Repr

/-! ### Requests, transitions and stations -/

/-- The priority of a transition request (Conventions). -/
inductive Priority
  | scheduled
  | commanded
  | protective
deriving DecidableEq, Repr

/-- The source of a transition request (R39). -/
inductive Source
  | schedule (entry : Fin 64)
  | host
  | fallback (slot : Fin 32)
  | restore
deriving DecidableEq, Repr

structure Request where
  slot : Fin 32
  priority : Priority
  source : Source
deriving DecidableEq, Repr

/-- A copy of a pattern taken from a slot: the target snapshot of a transition (R36). -/
structure Snapshot where
  slot : Fin 32
  version : Nat
  pattern : Pattern
deriving DecidableEq, Repr

inductive Verified
  | notMonitored
  | no
  | yes
deriving DecidableEq, Repr

/-- A station's in-service snapshot (R36). -/
structure InService where
  snap : Snapshot
  byProtection : Bool
  verified : Verified
deriving DecidableEq, Repr

inductive ArrayState
  | unset
  | inPattern
  | moving
  | mixed
  | faulted
deriving DecidableEq, Repr

inductive FaultReason
  | stuck
  | conflict
  | drift
  | monitor
  | breach
  | verify
deriving DecidableEq, Repr

/-- A station's mute claims (R43). -/
structure MuteClaims where
  startUp : Bool
  transition : Both Bool
  hostHold : Bool
  fault : Bool
deriving DecidableEq, Repr

inductive Outcome
  | completedVerified
  | completedUnverified
  | refused
  | failedNoMove
  | failedMixed
  | verifyFailed
deriving DecidableEq, Repr

/-- The reasons of outcomes (R81). -/
inductive Reason
  | vacant
  | incompatible
  | contactorFault
  | retiring
  | noWindows
  | verifyTimeout
  | aborted
  | carrierNotOff
  | breach
  | drift
  | stuck
deriving DecidableEq, Repr

/-- An outcome's reason with the contactor it carries, if any (R81, R203). -/
structure WhyEnded where
  reason : Reason
  contactor : Option (Fin 48)
deriving DecidableEq, Repr

structure LastOutcome where
  outcome : Outcome
  why : Option WhyEnded
  slot : Fin 32
  source : Source
  priority : Priority
deriving DecidableEq, Repr

/-- One station record (R39). The permit is computed from `claims` (R44). -/
structure StationRecord where
  arrayState : ArrayState
  faultReason : Option FaultReason
  prior : Option (ArrayState × Option FaultReason)
  inService : Option InService
  revised : Bool
  claims : MuteClaims
  powerStep : Nat
  carrier : Bool
  request : Option Request
  lastOutcome : Option LastOutcome
  saved : Option (Fin 32 × Nat)
  suspended : Bool
  governing : Option (Fin 64)
deriving DecidableEq, Repr

inductive Phase
  | idle
  | claiming
  | muting
  | driving
  | held
  | settling
  | verifying
deriving DecidableEq, Repr

/-- Why a transition is closing (R116). -/
inductive Cause
  | aborted
  | breach
  | stuck
deriving DecidableEq, Repr

/-- A tower's mark in VERIFYING; OUT keeps the reading that gave it, for MONITOR_FAIL (R124, R126). -/
inductive Mark
  | undecided
  | inTolerance
  | out (ratio : Nat) (phase : Int)
deriving DecidableEq, Repr

/-- One transition record (R58). Timers are held as the times at which they run out. `submitted`: the
first submission has been made (R47); `drove`: a pulse has been granted to the transition (R118). -/
structure TransitionRecord where
  phase : Phase
  target : Option Snapshot
  priority : Option Priority
  source : Option Source
  waiting : Bool
  moving : List (Fin 48)
  muted : StationSet
  stage : Option Nat
  moved : List (Fin 48)
  outstanding : List (Fin 48)
  heldBy : Option (Fin 4)
  breach : Option Nat
  timer : Option Nat
  closing : Option Cause
  deferred : Option (List (Fin 48))
  marks : List (Fin 8 × Mark)
  submitted : Bool
  drove : Bool
deriving DecidableEq, Repr

inductive HoldKind
  | contactor (c : Fin 48)
  | stage (st : Station) (n : Nat)
deriving DecidableEq, Repr

structure HoldPoint where
  kind : HoldKind
  armed : Bool
deriving DecidableEq, Repr

/-- The manual move in flight (R99). -/
structure ManualMove where
  contactor : Fin 48
  position : Position
deriving DecidableEq, Repr

/-! ### The Coil Drive Arbiter (R86) -/

inductive PulseOwner
  | tu (st : Station)
  | manual
deriving DecidableEq, Repr

/-- An entry of the pulse queue. `second`: try 2. -/
structure QueueEntry where
  contactor : Fin 48
  target : Position
  owner : PulseOwner
  priority : Priority
  arrival : Nat
  second : Bool
deriving DecidableEq, Repr

/-- A pulse in progress: its entry, the grant time, the end of the coil pulse length while the drive is
on, and the end of the travel limit. -/
structure Pulse where
  entry : QueueEntry
  granted : Nat
  driveEnd : Option Nat
  travelEnd : Nat
deriving DecidableEq, Repr

structure Arbiter where
  queue : List QueueEntry
  pulses : List Pulse
  nextArrival : Nat
deriving DecidableEq, Repr

/-- The feedback scan (R8): whether the reset scan has been made, and when the next scan is due. -/
structure Scan where
  resetDone : Bool
  due : Nat
deriving DecidableEq, Repr

/-! ### The Monitor Supervisor (R119 to R133) -/

inductive Silence
  | notWatched
  | watched (until_ : Nat)
  | silent
deriving DecidableEq, Repr

/-- One cell of the reading table (R121). -/
structure Cell where
  ratio : Option Nat
  phase : Option Int
  valid : Bool
  arrival : Option Nat
  run : Nat
  silence : Silence
deriving DecidableEq, Repr

inductive FailureKind
  | verify
  | monitor
deriving DecidableEq, Repr

/-- An open failure (R133). `running`: RUNNING, otherwise WAITING. -/
structure OpenFailure where
  kind : FailureKind
  slot : Fin 32
  version : Nat
  fallback : Fin 32
  running : Bool
deriving DecidableEq, Repr

/-- The Monitor Supervisor's state. `rx`: the bytes after the sync of the frame in progress, or
SEEKING. -/
structure Monitor where
  rx : Option (List Byte)
  rxAt : Nat
  discards : Nat
  cells : Both (Vector Cell 8)
  supervised : Both Bool
  failures : Both (Option OpenFailure)
deriving DecidableEq, Repr

/-! ### The site clock (R137) -/

structure Date where
  year : Nat
  day : Nat
deriving DecidableEq, Repr

structure SiteTime where
  date : Date
  minute : Nat
  second : Nat
deriving DecidableEq, Repr

inductive ClockSource
  | tref
  | internal
deriving DecidableEq, Repr

/-- The clock record (R137). `time` is absent while the state is NOT_SET; `boundary` is the time of the
last second boundary (R139); `absentDue` is when ABSENT_AT_START is judged (R138). -/
structure Clock where
  time : Option SiteTime
  source : ClockSource
  run : Nat
  lastPulse : Option Nat
  reference : Nat
  boundary : Nat
  kept : Bool
  absentDue : Option Nat
deriving DecidableEq, Repr

/-! ### The record store (R178 to R192) -/

inductive Segment
  | p (n : Fin 4)
  | s (n : Fin 4)
  | site
  | ops
  | mark
deriving DecidableEq, Repr

inductive JobKind
  | hostCommit
  | opsSave
deriving DecidableEq, Repr

/-- The operations data (R179). -/
structure OpsData where
  counts : List (Nat × Nat)
  saved : Both (Option (Fin 32 × Nat))
deriving DecidableEq, Repr

/-- The fields of the commit marker beside its commit number (R180). -/
structure MarkerData where
  kind : JobKind
  lastHost : Nat
  inForce : List Nat
deriving DecidableEq, Repr

/-- The records of a bank (R178); `none` is what an erased, faulted or cut-off bank holds. -/
inductive Records
  | none
  | patterns (slots : List (Option Versioned))
  | entries (slots : List (Option Entry))
  | site (site : Site) (code : Option (List Byte))
  | ops (data : OpsData)
  | marker (data : MarkerData)
deriving DecidableEq, Repr

/-- One bank: its records and the header of R178. -/
structure Bank where
  records : Records
  identity : Nat
  number : Nat
  check : Nat
  closing : Nat
deriving DecidableEq, Repr

/-- A pair of banks; `false` names bank 0 and `true` bank 1. `spare` is the bank the next write fills
(R178, R181, R189). -/
structure BankPair where
  bank0 : Bank
  bank1 : Bank
  current : Option Bool
  spare : Bool
  stale : Bool
deriving DecidableEq, Repr

/-- The running job: `left` are the writes before the marker that are not yet done, the one in progress
first (R183). `step` is the latest step of the write in progress that READ_STORE has shown, ERASE where it has shown
none (R181, R193; log entry 19). -/
structure Job where
  kind : JobKind
  number : Nat
  list : List Segment
  left : List Segment
  ops : Option OpsData
  step : WriteStep
deriving DecidableEq, Repr

/-- A waiting job: the segments it names and the requests merged into it (R183, R184). -/
structure WaitingJob where
  kind : JobKind
  touched : List Segment
  merged : Nat
deriving DecidableEq, Repr

inductive JobStatus
  | none
  | completed (number : Nat)
  | failed (number : Option Nat)
deriving DecidableEq, Repr

structure Store where
  pairs : Vector BankPair 11
  highest : Nat
  running : Option Job
  waiting : List WaitingJob
  hostStatus : JobStatus
  opsStatus : JobStatus
deriving DecidableEq, Repr

/-! ### Host Link and attention -/

/-- The receiver of the host link (R194); the frame's bytes are those after the sync. -/
inductive LinkRx
  | seeking
  | inFrame (bytes : List Byte)
  | answering
deriving DecidableEq, Repr

structure Link where
  rate : BitVec 3
  rx : LinkRx
  rxAt : Nat
  tx : List Byte
  authority : Bool
  grantAtStart : Bool
  lockUntil : Option Nat
  cursor : Option Cursor
deriving DecidableEq, Repr

inductive ClockEvent
  | lost
  | absentAtStart
  | rangeEnd
deriving DecidableEq, Repr

/-- What start-up found (R192). -/
structure StartupReport where
  number : Nat
  lastHost : Nat
  blank : Bool
  rolledBack : List Segment
  /-- damaged segments, `true` for a reverted one -/
  damaged : List (Segment × Bool)
  withheld : List (Fin 32)
  /-- pattern slots whose fallback was made absent, with the slot it named -/
  fallbacks : List (Fin 32 × Fin 32)
  entries : List (Fin 64)
deriving DecidableEq, Repr

/-- An attention flag's detail; the constructor names the flag (section 11.4). -/
inductive Detail
  | storeFault (kind : JobKind) (number : Nat) (segment : Segment) (step : WriteStep)
  | numbersExhausted (kind : JobKind)
  | contactorFault (c : Fin 48) (condition : Condition)
  | carrierBreach (st : Station) (units : Both Bool) (pulse : Bool)
  | monitorFail (st : Station) (slot : Fin 32) (version : Nat) (kind : FailureKind)
      (towers : List (Fin 8 × Nat × Int)) (fallback : Bool)
  | transitionFailed (st : Station) (slot : Fin 32) (outcome : Outcome) (why : Option WhyEnded)
  | hotMove (c : Fin 48) (stations : StationSet)
  | verifyTimeout (st : Station) (slot : Fin 32) (version : Nat) (towers : List (Fin 8))
  | monitorSilent (st : Station) (tower : Fin 8) (slot : Option (Fin 32))
  | clockSource (event : ClockEvent) (time : Option SiteTime)
  | requestDropped (st : Station) (request : Request)
  | holdReached (st : Station) (point : Fin 4) (stage : Nat) (slot : Option (Fin 32))
  | holdExpired (st : Station) (point : Option (Fin 4)) (stage : Option Nat)
  | transitionDone (st : Station) (slot : Fin 32) (outcome : Outcome)
  | commitDone (number : Nat) (records : Nat)
  | maintenanceDue (c : Fin 48) (operations : Nat)
  | storeRestored (report : StartupReport)
deriving DecidableEq, Repr

/-- One attention flag (section 11.4): latched exactly while it holds a detail. -/
structure Flag where
  latched : Bool
  enable : Bool
  detail : Option Detail
  count : Nat
deriving DecidableEq, Repr

/-- The output pins (Signals). `attn`: driven low; `coils`: the energized coils. -/
structure Pins where
  tprm : Both Bool
  pstp : Both Nat
  attn : Bool
  ldir : Bool
  coils : List (Fin 48 × Position)
deriving DecidableEq, Repr

end Sys2Proof.Machine
end

