-- ==== Sys2Proof/Machine/State.lean ====
section
/-! DEFINITION. The state of the DPC-262, and the state after a power-on reset. -/

namespace Sys2Proof.Machine

/-- What stops the machine: nothing. Every fault the spec names is a state, a flag or a response of a
machine that goes on, so no command ends in a fault. -/
inductive Fault
deriving DecidableEq, Repr

/-- What the model has no meaning for. -/
inductive Refusal
  /-- A command whose arm of `exec` has no meaning yet. Safe: nothing can be proved about its effect. No
  arm raises it. -/
  | notModelled (mnemonic : String)
deriving DecidableEq, Repr

/-- The whole machine. `now`, `races` and `storeLooks` are the model's own (log entries 1, 8, 19). -/
structure State where
  now : Nat
  races : Nat
  storeLooks : Nat
  started : Bool
  tables : Tables
  staging : List StagedEntry
  commit : Option CommitRun
  rows : Vector Row 48
  scan : Scan
  arbiter : Arbiter
  stations : Both StationRecord
  manual : Option ManualMove
  units : Both TransitionRecord
  holds : Vector (Option HoldPoint) 4
  monitor : Monitor
  clock : Clock
  lastFired : Vector (Option Date) 64
  store : Store
  link : Link
  attention : Vector Flag 16
  pins : Pins
  pending : List Instr
deriving DecidableEq, Repr

/-- A contactor row from reset (R6). `sensed` before the reset scan: log entry 7. -/
def Row.reset : Row :=
  { path := none, sensed := .between, candidate := none, commanded := none, claim := .none,
    releaseDue := false, condition := .normal, lastTravel := none, operations := 0, hotMoves := 0,
    maintenance := false, hotMark := ⟨false, false⟩ }

/-- The blank-store site record (R1). -/
def Site.blank : Site :=
  { config := Vector.replicate 48 none, towers := ⟨0, 0⟩, coilPulse := 100, travelLimit := 800,
    slowThreshold := 400, concurrency := 2, carrierOffWait := 5, toleranceRun := 3,
    silenceLimit := 60, holdLimit := 30, maintenance := 0 }

/-- The tables of a blank store (R188). -/
def Tables.blank : Tables :=
  { patterns := Vector.replicate 32 none, schedule := Vector.replicate 64 none,
    site := Site.blank, code := none }

/-- A station record from reset (R40). -/
def StationRecord.reset : StationRecord :=
  { arrayState := .unset, faultReason := none, prior := none, inService := none, revised := false,
    claims := { startUp := true, transition := ⟨false, false⟩, hostHold := false, fault := false },
    powerStep := 1, carrier := true, request := none, lastOutcome := none, saved := none,
    suspended := false, governing := none }

/-- A transition record in IDLE (R58, R59). -/
def TransitionRecord.idle : TransitionRecord :=
  { phase := .idle, target := none, priority := none, source := none, waiting := false, moving := [],
    muted := ⟨false, false⟩, stage := none, moved := [], outstanding := [], heldBy := none,
    breach := none, timer := none, closing := none, deferred := none, marks := [],
    submitted := false, drove := false }

/-- A cell of the reading table from reset (R121, R136). -/
def Cell.reset : Cell :=
  { ratio := none, phase := none, valid := false, arrival := none, run := 0, silence := .notWatched }

def Monitor.reset : Monitor :=
  { rx := none, rxAt := 0, discards := 0,
    cells := ⟨Vector.replicate 8 Cell.reset, Vector.replicate 8 Cell.reset⟩,
    supervised := ⟨false, false⟩, failures := ⟨none, none⟩ }

/-- An erased bank: every byte of it is FFh (R178, R203). -/
def Bank.erased : Bank :=
  { records := .none, identity := 0xFF, number := 0xFFFFFFFF, check := 0xFFFF, closing := 0xFF }

def BankPair.erased : BankPair :=
  { bank0 := Bank.erased, bank1 := Bank.erased, current := none, spare := false, stale := false }

/-- The record store of a new part (R188); log entry 5. -/
def Store.new : Store :=
  { pairs := Vector.replicate 11 BankPair.erased, highest := 0, running := none, waiting := [],
    hostStatus := .none, opsStatus := .none }

def Flag.reset : Flag := { latched := false, enable := true, detail := none, count := 0 }

/-- The machine right after a power-on reset with the clock record lost, of a part whose record store has
never been written and whose rate straps read 0 (log entries 5 and 6). -/
def State.reset : State :=
  { now := 0, races := 0, storeLooks := 0, started := false, tables := Tables.blank, staging := [],
    commit := none, rows := Vector.replicate 48 Row.reset, scan := { resetDone := false, due := 0 },
    arbiter := { queue := [], pulses := [], nextArrival := 1 },
    stations := ⟨StationRecord.reset, StationRecord.reset⟩, manual := none,
    units := ⟨TransitionRecord.idle, TransitionRecord.idle⟩, holds := Vector.replicate 4 none,
    monitor := Monitor.reset,
    clock := { time := none, source := .internal, run := 0, lastPulse := none, reference := 0,
               boundary := 0, kept := false, absentDue := some 4000 },
    lastFired := Vector.replicate 64 none, store := Store.new,
    link := { rate := 0, rx := .seeking, rxAt := 0, tx := [], authority := false,
              grantAtStart := true, lockUntil := none, cursor := none },
    attention := Vector.replicate 16 Flag.reset,
    pins := { tprm := ⟨false, false⟩, pstp := ⟨1, 1⟩, attn := false, ldir := false, coils := [] },
    pending := [] }

end Sys2Proof.Machine
end

