-- ==== Sys2Proof/Machine/Ops.lean ====
section
/-! DEFINITION. Named operations over the machine's tables: reading and writing rows, stations, units,
cells and slots, time, pulses in motion, mute claims and output pins. -/

namespace Sys2Proof

/-- The other station (Conventions). -/
def Station.other : Station → Station
  | .A => .B
  | .B => .A

namespace Machine

/-! ### Both stations -/

def Both.get {α : Type} (p : Both α) : Station → α
  | .A => p.a
  | .B => p.b

def Both.set {α : Type} (p : Both α) (st : Station) (x : α) : Both α :=
  match st with
  | .A => { p with a := x }
  | .B => { p with b := x }

/-- Apply `f` to one station's value. -/
def Both.upd {α : Type} (p : Both α) (st : Station) (f : α → α) : Both α := p.set st (f (p.get st))

def StationSet.empty : StationSet := ⟨false, false⟩

def StationSet.isEmpty (s : StationSet) : Bool := !s.a && !s.b

def StationSet.union (s t : StationSet) : StationSet := ⟨s.a || t.a, s.b || t.b⟩

/-- The members of a set of stations, A first. -/
def StationSet.members (s : StationSet) : List Station :=
  (if s.a then [Station.A] else []) ++ (if s.b then [Station.B] else [])

def StationSet.only (st : Station) : StationSet := StationSet.empty.set st true

/-! ### Paths and positions -/

/-- Whether the RF of a station passes through the path (R1). -/
def Path.has : Path → Station → Bool
  | .a, .A => true
  | .a, .B => false
  | .b, .A => false
  | .b, .B => true
  | .ab, _ => true

def Path.stations (p : Path) : StationSet := ⟨p.has .A, p.has .B⟩

/-- The sensed value of a contactor that rests at a position (R8). -/
def Position.sensed : Position → Sensed
  | .one => .at1
  | .two => .at2

/-- All contactor numbers, ascending. -/
def allContactors : List (Fin 48) := List.finRange 48

/-- A set of contactors, held as its members in ascending order. -/
def contactorSet (p : Fin 48 → Bool) : List (Fin 48) := allContactors.filter p

/-! ### Reading and writing the tables -/

def State.row (s : State) (c : Fin 48) : Row := s.rows[c]

def State.station (s : State) (st : Station) : StationRecord := s.stations.get st

def State.unit (s : State) (st : Station) : TransitionRecord := s.units.get st

def State.pattern (s : State) (slot : Fin 32) : Option Versioned := s.tables.patterns[slot]

def State.entry (s : State) (e : Fin 64) : Option Entry := s.tables.schedule[e]

def State.cell (s : State) (st : Station) (tower : Fin 8) : Cell := (s.monitor.cells.get st)[tower]

/-- Change one row of the contactor table. -/
def State.updRow (c : Fin 48) (f : Row → Row) (s : State) : State :=
  { s with rows := s.rows.set c (f s.rows[c]) }

/-- Change every row of the contactor table in one event. -/
def State.updRows (f : Fin 48 → Row → Row) (s : State) : State :=
  { s with rows := Vector.ofFn fun c => f c s.rows[c] }

/-- Change one station record. -/
def State.updStation (st : Station) (f : StationRecord → StationRecord) (s : State) : State :=
  { s with stations := s.stations.upd st f }

/-- Change one transition record. -/
def State.updUnit (st : Station) (f : TransitionRecord → TransitionRecord) (s : State) : State :=
  { s with units := s.units.upd st f }

/-- Change one cell of the reading table. -/
def State.updCell (st : Station) (tower : Fin 8) (f : Cell → Cell) (s : State) : State :=
  { s with monitor := { s.monitor with
      cells := s.monitor.cells.upd st fun v => v.set tower (f v[tower]) } }

/-- Set a station's open failure (R133). -/
def State.setFailure (st : Station) (x : Option OpenFailure) (s : State) : State :=
  { s with monitor := { s.monitor with failures := s.monitor.failures.set st x } }

/-! ### Time (log entry 1) -/

/-- `dt` ms pass. -/
def State.elapse (dt : Nat) (s : State) : State := { s with now := s.now + dt }

/-- `dt` ms pass, and at least until `t`: the event that is about to be taken happens at `t` or later. -/
def State.elapseTo (dt t : Nat) (s : State) : State := { s with now := max (s.now + dt) t }

/-- The time left of a timer that runs out at `t`. -/
def State.timeLeft (s : State) (t : Nat) : Nat := t - s.now

/-! ### Patterns and snapshots -/

/-- The settings of a pattern, stage by stage (R25). -/
def Pattern.settings (p : Pattern) : List Setting := p.stages.flatten

/-- The position a pattern lists a contactor at, if it lists it (R25). -/
def Pattern.lists (p : Pattern) (c : Fin 48) : Option Position :=
  (p.settings.find? fun x => x.contactor = c).map (·.position)

/-- The listed contactors of a pattern, ascending. -/
def Pattern.listed (p : Pattern) : List (Fin 48) := contactorSet fun c => (p.lists c).isSome

/-- The position at which a station's in-service snapshot lists a contactor; an absent snapshot lists
none (R37). -/
def State.inServiceLists (s : State) (st : Station) (c : Fin 48) : Option Position :=
  match (s.station st).inService with
  | some v => v.snap.pattern.lists c
  | none => none

/-- Whether a contactor is sensed at a position. -/
def State.standsAt (s : State) (c : Fin 48) (p : Position) : Bool := (s.row c).sensed = p.sensed

/-! ### Permit and carrier -/

def MuteClaims.isEmpty (m : MuteClaims) : Bool :=
  !m.startUp && !m.transition.a && !m.transition.b && !m.hostHold && !m.fault

/-- A station's transmit permit is asserted exactly when its set of mute claims is empty (R44). -/
def StationRecord.permit (r : StationRecord) : Bool := r.claims.isEmpty

/-- Every station of the path shows carrier off and has its permit withdrawn (R89). -/
def State.pathSafe (s : State) (p : Path) : Bool :=
  p.stations.members.all fun st => !(s.station st).carrier && !(s.station st).permit

/-- Every station of the set shows carrier off. -/
def State.allCarriersOff (s : State) (set : StationSet) : Bool :=
  set.members.all fun st => !(s.station st).carrier

/-- The stations of a path whose carrier is accepted as on. -/
def State.carriersOn (s : State) (p : Path) : StationSet :=
  ⟨p.has .A && s.stations.a.carrier, p.has .B && s.stations.b.carrier⟩

/-! ### Pulses -/

/-- The pulse in progress for a contactor. -/
def State.pulseOf (s : State) (c : Fin 48) : Option Pulse :=
  s.arbiter.pulses.find? fun p => p.entry.contactor = c

/-- The queue entry of a contactor. -/
def State.queuedOf (s : State) (c : Fin 48) : Option QueueEntry :=
  s.arbiter.queue.find? fun q => q.contactor = c

/-- Whether a pulse for the contactor is queued or in progress (R10, R16). -/
def State.inMotion (s : State) (c : Fin 48) : Bool := (s.pulseOf c).isSome || (s.queuedOf c).isSome

/-- The contactors of a unit's pulses in progress (R97). -/
def State.pulsesOf (s : State) (owner : PulseOwner) : List (Fin 48) :=
  contactorSet fun c => s.arbiter.pulses.any fun p => p.entry.contactor = c && p.entry.owner = owner

def Priority.rank : Priority → Nat
  | .scheduled => 1
  | .commanded => 2
  | .protective => 3

/-! ### Commits -/

/-- A commit that carries a site record is running (R172). -/
def State.siteCommitRunning (s : State) : Bool :=
  match s.commit with
  | some run => run.carried.any fun x => x.1 = .site
  | none => false

/-- The slot is in the commit-in-progress set as retiring (R173). -/
def State.retiring (s : State) (slot : Fin 32) : Bool :=
  match s.commit with
  | some run => run.carried.any fun x => x.1 = .pattern slot && x.2
  | none => false

/-- The slot is ACTIVE for the station in the working tables. -/
def State.activeFor (s : State) (slot : Fin 32) (st : Station) : Bool :=
  match s.pattern slot with
  | some v => v.pattern.station = st
  | none => false

/-- A station's revised flag as R38 evaluates it. -/
def State.revisedNow (s : State) (st : Station) : Bool :=
  match (s.station st).inService with
  | some v =>
    match s.pattern v.snap.slot with
    | some w => w.version ≠ v.snap.version
    | none => false
  | none => false

/-- A station is in service at the working version of a slot (R38). -/
def State.inServiceAtWorking (s : State) (st : Station) (slot : Fin 32) : Bool :=
  (s.station st).arrayState = .inPattern &&
  (match (s.station st).inService with
   | some v => v.snap.slot = slot
   | none => false) &&
  !(s.station st).revised

/-! ### Open orders (log entry 8) -/

/-- The order in which two things, one of each station, are taken: A's first where only one of them is at
stake, and in the order a free value gives where both are. -/
def State.raceOrder (s : State) (bothContest : Bool) : List Station × State :=
  if bothContest then
    (if Config.raceFirst s.races then [.A, .B] else [.B, .A], { s with races := s.races + 1 })
  else ([.A, .B], s)

/-! ### Output pins (Signals) -/

/-- The pins as the state drives them: TPRM follows the permits (R44), PSTP the power steps (R45), ATTN
the latched enabled flags (R200), LDIR the response being sent (R195), the coil outputs the pulses
whose drive is on (R91). -/
def State.pinsNow (s : State) : Pins :=
  { tprm := ⟨s.stations.a.permit, s.stations.b.permit⟩
    pstp := ⟨s.stations.a.powerStep, s.stations.b.powerStep⟩
    attn := s.attention.toList.any fun f => f.latched && f.enable
    ldir := s.link.rx = .answering
    coils := s.arbiter.pulses.filterMap fun p =>
      if p.driveEnd.isSome then some (p.entry.contactor, p.entry.target) else none }

/-- Every output follows in the event that changes what drives it. -/
def State.drivePins (s : State) : State := { s with pins := s.pinsNow }

end Machine

end Sys2Proof
end

