-- ==== Sys2Proof/Machine/Flags.lean ====
section
/-! DEFINITION. The sixteen attention flags: raising and clearing (section 11.4). -/

namespace Sys2Proof.Machine

/-- The flag a detail belongs to (R199). -/
def Detail.flag : Detail → Fin 16
  | .storeFault _ _ _ _ => 0
  | .numbersExhausted _ => 0
  | .contactorFault _ _ => 1
  | .carrierBreach _ _ _ => 2
  | .monitorFail _ _ _ _ _ _ => 3
  | .transitionFailed _ _ _ _ => 4
  | .hotMove _ _ => 5
  | .verifyTimeout _ _ _ _ => 6
  | .monitorSilent _ _ _ => 7
  | .clockSource _ _ => 8
  | .requestDropped _ _ => 9
  | .holdReached _ _ _ _ => 10
  | .holdExpired _ _ _ => 11
  | .transitionDone _ _ _ => 12
  | .commitDone _ _ => 13
  | .maintenanceDue _ _ => 14
  | .storeRestored _ => 15

/-- A raise latches the flag, keeps the first detail and counts the occurrence up to 255 (R199). -/
def Flag.raise (d : Detail) (f : Flag) : Flag :=
  if f.latched then { f with count := min 255 (f.count + 1) }
  else { f with latched := true, detail := some d, count := 1 }

/-- Clearing a flag: not latched, detail absent, count 0; the enable stays (R201, R202). -/
def Flag.clear (f : Flag) : Flag := { f with latched := false, detail := none, count := 0 }

/-- The flags 12, 13 and 15 are notices (R199). -/
def isNotice (n : Fin 16) : Bool := n = 12 || n = 13 || n = 15

def State.updFlag (n : Fin 16) (f : Flag → Flag) (s : State) : State :=
  { s with attention := s.attention.set n (f s.attention[n]) }

/-- Raise a flag with its detail (R199). -/
def State.raise (d : Detail) (s : State) : State := s.updFlag d.flag (Flag.raise d)

/-- The highest-priority latched flag, enabled or not (R201). -/
def State.highestFlag (s : State) : Option (Fin 16) :=
  (List.finRange 16).find? fun n => s.attention[n].latched

end Sys2Proof.Machine
end

