-- ==== Sys2Proof/Machine/Format.lean ====
section
/-! DEFINITION. The byte layouts of R203 and R204: numbers, named values, records, banks, details and
response frames. Choices the layout rules leave are in log entries 21 to 27 and 37 to 42. -/

namespace Sys2Proof.Machine

/-! ### Numbers (R203) -/

def u8 (n : Nat) : List Byte := [BitVec.ofNat 8 n]

def u16 (n : Nat) : List Byte := u8 (n / 256) ++ u8 n

def u32 (n : Nat) : List Byte := u16 (n / 65536) ++ u16 n

/-- A range with negative values: two bytes in two's complement. -/
def i16 (z : Int) : List Byte := u16 (BitVec.ofInt 16 z).toNat

def yesNo (b : Bool) : List Byte := u8 (if b then 1 else 0)

/-- An absent optional field has every bit of its width set. -/
def opt8 (x : Option Nat) : List Byte := u8 (x.getD 0xFF)

def opt16 (x : Option Nat) : List Byte := u16 (x.getD 0xFFFF)

def opt32 (x : Option Nat) : List Byte := u32 (x.getD 0xFFFFFFFF)

/-- A list is a count byte followed by its entries in their held order. -/
def listOf {α : Type} (f : α → List Byte) (l : List α) : List Byte := u8 l.length ++ l.flatMap f

/-- Text is a length byte followed by the characters. -/
def text (t : List Byte) : List Byte := u8 t.length ++ t

/-- The value of bytes, most significant first. -/
def beNat (bytes : List Byte) : Nat := bytes.foldl (fun n b => 256 * n + b.toNat) 0

/-- Two bytes as a two's complement number. -/
def beInt16 (hi lo : Byte) : Int := (BitVec.ofNat 16 (beNat [hi, lo])).toInt

/-- The sum of bytes, each an unsigned number. -/
def byteSum (bytes : List Byte) : Nat := bytes.foldl (fun n b => n + b.toNat) 0

/-! ### Named values, numbered from 1 in the order their rule lists them (R203) -/

def Station.code : Station → Nat
  | .A => 1
  | .B => 2

/-- Station A in the least significant bit. -/
def StationSet.code (s : StationSet) : Nat := (if s.a then 1 else 0) + (if s.b then 2 else 0)

def Position.code : Position → Nat
  | .one => 1
  | .two => 2

def Path.code (p : Path) : Nat := StationSet.code p.stations

def Sensed.code : Sensed → Nat
  | .at1 => 1
  | .at2 => 2
  | .between => 3
  | .conflict => 4

def Claim.code : Claim → Nat
  | .none => 1
  | .tu .A => 2
  | .tu .B => 3
  | .manual => 4

def Condition.code : Condition → Nat
  | .normal => 1
  | .slow => 2
  | .stuck => 3
  | .conflict => 4
  | .drifted => 5

def ArrayState.code : ArrayState → Nat
  | .unset => 1
  | .inPattern => 2
  | .moving => 3
  | .mixed => 4
  | .faulted => 5

def FaultReason.code : FaultReason → Nat
  | .stuck => 1
  | .conflict => 2
  | .drift => 3
  | .monitor => 4
  | .breach => 5
  | .verify => 6

/-- NOT_MONITORED, NO and YES in the order of R77 and R125 (log entry 23). -/
def Verified.code : Verified → Nat
  | .notMonitored => 1
  | .no => 2
  | .yes => 3

/-- START-UP, TRANSITION-A, TRANSITION-B, HOST-HOLD, FAULT from the least significant bit (R39). -/
def MuteClaims.code (m : MuteClaims) : Nat :=
  (if m.startUp then 1 else 0) + (if m.transition.a then 2 else 0) +
  (if m.transition.b then 4 else 0) + (if m.hostHold then 8 else 0) + (if m.fault then 16 else 0)

def Source.bytes : Source → List Byte
  | .schedule e => u8 1 ++ u8 e.val
  | .host => u8 2 ++ u8 0xFF
  | .fallback slot => u8 3 ++ u8 slot.val
  | .restore => u8 4 ++ u8 0xFF

def optSource : Option Source → List Byte
  | some x => x.bytes
  | none => u8 0xFF ++ u8 0xFF

def Phase.code : Phase → Nat
  | .idle => 1
  | .claiming => 2
  | .muting => 3
  | .driving => 4
  | .held => 5
  | .settling => 6
  | .verifying => 7

def Cause.code : Cause → Nat
  | .aborted => 1
  | .breach => 2
  | .stuck => 3

def Mark.code : Mark → Nat
  | .undecided => 1
  | .inTolerance => 2
  | .out _ _ => 3

/-- Outcomes take values of their own (R203). -/
def Outcome.code : Outcome → Nat
  | .completedVerified => 1
  | .completedUnverified => 2
  | .refused => 3
  | .failedNoMove => 4
  | .failedMixed => 5
  | .verifyFailed => 6

/-- Reasons take values of their own (R203). -/
def Reason.code : Reason → Nat
  | .vacant => 0x23
  | .incompatible => 0x28
  | .contactorFault => 0x29
  | .retiring => 0x2A
  | .noWindows => 0x40
  | .verifyTimeout => 0x41
  | .aborted => 0x42
  | .carrierNotOff => 0x43
  | .breach => 0x44
  | .drift => 0x45
  | .stuck => 0x46

/-- A reason followed by its contactor byte, FFh where it carries none; an absent reason is FFh (R203). -/
def whyBytes : Option WhyEnded → List Byte
  | some w => u8 w.reason.code ++ opt8 (w.contactor.map (·.val))
  | none => u8 0xFF ++ u8 0xFF

def FailureKind.code : FailureKind → Nat
  | .verify => 1
  | .monitor => 2

def ClockSource.code : ClockSource → Nat
  | .tref => 1
  | .internal => 2

def ClockEvent.code : ClockEvent → Nat
  | .lost => 1
  | .absentAtStart => 2
  | .rangeEnd => 3

def JobKind.code : JobKind → Nat
  | .hostCommit => 1
  | .opsSave => 2

/-- The identity of a segment's banks (R203). -/
def Segment.id : Segment → Nat
  | .p n => 1 + n.val
  | .s n => 5 + n.val
  | .site => 9
  | .ops => 10
  | .mark => 11

def WriteStep.code : WriteStep → Nat
  | .erase => 1
  | .records => 2
  | .header => 3

/-- The later of two steps, in the order of R181. -/
def WriteStep.later (a b : WriteStep) : WriteStep := if WriteStep.code a ≤ WriteStep.code b then b else a

def JobStatus.bytes : JobStatus → List Byte
  | .none => u8 1 ++ opt32 Option.none
  | .completed n => u8 2 ++ u32 n
  | .failed n => u8 3 ++ opt32 n

def RecordId.kindCode : RecordId → Nat
  | .pattern _ => 1
  | .schedule _ => 2
  | .site => 3

def RecordId.index : RecordId → Nat
  | .pattern slot => slot.val
  | .schedule e => e.val
  | .site => 0

/-- REPLACE is 1 and RETIRE is 2 (R159). -/
def actionCode (isRetire : Bool) : Nat := if isRetire then 2 else 1

/-- A set of contactors: contactor n is bit (n modulo 8) of byte (n divided by 8). -/
def contactorBits (l : List (Fin 48)) : List Byte :=
  (List.range 6).flatMap fun k =>
    u8 (((List.range 8).map fun j => if l.any (fun c => c.val = 8 * k + j) then 2 ^ j else 0).sum)

def optContactorBits : Option (List (Fin 48)) → List Byte
  | some l => contactorBits l
  | none => List.replicate 6 0xFF

/-- Site time: year, day, minute and second; every bit set when absent. -/
def timeBytes : Option SiteTime → List Byte
  | some t => u16 t.date.year ++ u16 t.date.day ++ u16 t.minute ++ u8 t.second
  | none => opt16 none ++ opt16 none ++ opt16 none ++ opt8 none

/-- A last-fired date: year and day, FFFFFFFFh when absent. -/
def dateBytes : Option Date → List Byte
  | some d => u16 d.year ++ u16 d.day
  | none => opt32 none

/-- A saved in-service slot and version: FFh and FFFFh when absent (operations data). -/
def savedBytes : Option (Fin 32 × Nat) → List Byte
  | some (slot, version) => u8 slot.val ++ u16 version
  | none => opt8 none ++ opt16 none

/-! ### Record layouts -/

def Setting.bytes (x : Setting) : List Byte := u8 x.contactor.val ++ u8 x.position.code

def Window.bytes (w : Window) : List Byte :=
  u8 (w.tower.val + 1) ++ u16 w.ratioLow ++ u16 w.ratioHigh ++ i16 w.centre ++ u16 w.halfWidth

/-- The pattern record layout of an ACTIVE pattern. -/
def Versioned.bytes (v : Versioned) : List Byte :=
  let p := v.pattern
  u8 2 ++ u8 (Station.code p.station) ++ text p.label ++ u8 p.powerStep ++ u8 p.settle ++
  opt8 (p.fallback.map (·.val)) ++ u16 v.version ++ listOf (listOf Setting.bytes) p.stages ++
  listOf Window.bytes p.windows

/-- The pattern record layout; a VACANT record ends after its state. -/
def patternBytes : Option Versioned → List Byte
  | some v => v.bytes
  | none => u8 1

/-- The schedule entry layout without the last-fired date. -/
def Entry.bytes (e : Entry) : List Byte :=
  u8 (if e.enabled then 2 else 3) ++ u8 (Station.code e.station) ++ u16 e.firstDay ++ u16 e.lastDay ++
  u16 e.minute ++ u8 e.target.val ++ u8 e.precedence

def entryBytes : Option Entry → List Byte
  | some e => e.bytes
  | none => u8 1

/-- The site record layout without the site code. -/
def Site.bytes (x : Site) : List Byte :=
  (allContactors.flatMap fun c =>
    u8 (match x.config[c] with
        | some p => p.code
        | none => 0)) ++
  [x.towers.a, x.towers.b] ++ u16 x.coilPulse ++ u16 x.travelLimit ++ u16 x.slowThreshold ++
  u8 x.concurrency ++ u8 x.carrierOffWait ++ u8 x.toleranceRun ++ u16 x.silenceLimit ++
  u8 x.holdLimit ++ u32 x.maintenance

/-- The site code in the SITE bank: form 2 with the code, or form 3 for none set. -/
def bankCodeBytes : Option (List Byte) → List Byte
  | some code => u8 2 ++ code
  | none => u8 3

def OpsData.bytes (d : OpsData) : List Byte :=
  (d.counts.flatMap fun x => u32 x.1 ++ u16 x.2) ++ savedBytes d.saved.a ++ savedBytes d.saved.b

def MarkerData.bytes (m : MarkerData) : List Byte :=
  u8 m.kind.code ++ u32 m.lastHost ++ m.inForce.flatMap u32

/-! ### Banks (R178) -/

def Records.bytes : Records → List Byte
  | .none => []
  | .patterns l => l.flatMap patternBytes
  | .entries l => l.flatMap entryBytes
  | .site x code => x.bytes ++ bankCodeBytes code
  | .ops d => d.bytes
  | .marker m => m.bytes

/-- The check of a bank: the sum, modulo 65,536, of every byte before it (R203). -/
def bankCheck (records : Records) (identity number : Nat) : Nat :=
  byteSum (records.bytes ++ u8 identity ++ u32 number) % 65536

/-- A bank written whole: its records, the header and the closing mark 5Ah (R181, R203). -/
def Bank.written (seg : Segment) (number : Nat) (records : Records) : Bank :=
  { records := records, identity := seg.id, number := number,
    check := bankCheck records seg.id number, closing := 0x5A }

/-- A bank is valid when its identity names its segment, its closing mark holds the closing value and its
check agrees with its content (R178). -/
def Bank.valid (seg : Segment) (b : Bank) : Bool :=
  b.identity = seg.id && b.closing = 0x5A && b.check = bankCheck b.records b.identity b.number

/-! ### Details and responses -/

/-- An attention detail: the fields of its flag's table row, in that order (R203). Sets without a one-byte form, the
towers of VERIFY_TIMEOUT and the rolled-back segments of STORE_RESTORED, are sent as lists (log entry 42), and
towers stand in the order of the windows (log entry 40). The neutralized references of STORE_RESTORED (R192) are
three lists, a fallback sent as its pattern's slot and then the slot it named (log entry 45). -/
def Detail.bytes : Detail → List Byte
  | .storeFault kind number seg step => u8 kind.code ++ u32 number ++ u8 seg.id ++ u8 (WriteStep.code step)
  | .numbersExhausted kind => u8 kind.code ++ u8 1
  | .contactorFault c cond => u8 c.val ++ u8 cond.code
  | .carrierBreach st units pulse => u8 (Station.code st) ++ u8 (StationSet.code units) ++ yesNo pulse
  | .monitorFail st slot version kind towers fallback =>
    u8 (Station.code st) ++ u8 slot.val ++ u16 version ++ u8 kind.code ++
    listOf (fun t => u8 (t.1.val + 1) ++ u16 t.2.1 ++ i16 t.2.2) towers ++
    u8 (if fallback then 1 else 2)
  | .transitionFailed st slot outcome why =>
    u8 (Station.code st) ++ u8 slot.val ++ u8 outcome.code ++ whyBytes why
  | .hotMove c stations => u8 c.val ++ u8 (StationSet.code stations)
  | .verifyTimeout st slot version towers =>
    u8 (Station.code st) ++ u8 slot.val ++ u16 version ++ listOf (fun t => u8 (t.val + 1)) towers
  | .monitorSilent st tower slot =>
    u8 (Station.code st) ++ u8 (tower.val + 1) ++ opt8 (slot.map (·.val))
  | .clockSource event time => u8 event.code ++ timeBytes time
  | .requestDropped st r =>
    u8 (Station.code st) ++ u8 r.slot.val ++ r.source.bytes ++ u8 r.priority.rank
  | .holdReached st point stage slot =>
    u8 (Station.code st) ++ u8 point.val ++ u8 stage ++ opt8 (slot.map (·.val))
  | .holdExpired st point stage =>
    u8 (Station.code st) ++ opt8 (point.map (·.val)) ++ opt8 stage
  | .transitionDone st slot outcome => u8 (Station.code st) ++ u8 slot.val ++ u8 outcome.code
  | .commitDone number records => u32 number ++ u8 records
  | .maintenanceDue c operations => u8 c.val ++ u32 operations
  | .storeRestored r =>
    u32 r.number ++ u32 r.lastHost ++ yesNo r.blank ++ yesNo (!r.rolledBack.isEmpty) ++
    listOf (fun x => u8 (Segment.id x)) r.rolledBack ++
    listOf (fun x => u8 (Segment.id x.1) ++ yesNo x.2) r.damaged ++
    listOf (fun x => u8 x.val) r.withheld ++
    listOf (fun x => u8 x.1.val ++ u8 x.2.val) r.fallbacks ++ listOf (fun x => u8 x.val) r.entries

/-- The status codes (section 11.1). -/
inductive Status
  | ok
  | accepted
  | absorbed
  | endOfKind
  | unknownRequest
  | badLength
  | notAuthorized
  | lockedOut
  | starting
  | fieldError
  | notInPath
  | full
  | vacant
  | busy
  | committing
  | referenced
  | inUse
  | contactorFault
  | retiring
  | wrongStation
  | wrongState
  | notPermitted
deriving DecidableEq, Repr

def Status.code : Status → Nat
  | .ok => 0x00
  | .accepted => 0x01
  | .absorbed => 0x02
  | .endOfKind => 0x03
  | .unknownRequest => 0x10
  | .badLength => 0x11
  | .notAuthorized => 0x12
  | .lockedOut => 0x13
  | .starting => 0x14
  | .fieldError => 0x20
  | .notInPath => 0x21
  | .full => 0x22
  | .vacant => 0x23
  | .busy => 0x24
  | .committing => 0x25
  | .referenced => 0x26
  | .inUse => 0x27
  | .contactorFault => 0x29
  | .retiring => 0x2A
  | .wrongStation => 0x2B
  | .wrongState => 0x2C
  | .notPermitted => 0x2D

/-- An owner's answer: a status and the body (R195, R196). -/
structure Reply where
  status : Status
  body : List Byte
deriving DecidableEq, Repr

def Reply.ok (body : List Byte) : Reply := ⟨.ok, body⟩

/-- A refusal without a body. -/
def Reply.refuse (status : Status) : Reply := ⟨status, []⟩

/-- FIELD_ERROR with the field code in its body, 0 where the rule gives none (R196). -/
def Reply.fieldError (code : Nat) : Reply := ⟨.fieldError, u8 code⟩

/-- REFERENCED and IN_USE name the record (R196). -/
def Reply.record (status : Status) (r : RecordId) : Reply := ⟨status, u8 r.kindCode ++ u8 r.index⟩

/-- The response frame: sync, length, request code, status, body and the check byte that makes the sum of
the bytes from the length on 0 modulo 256 (link frame layout). -/
def responseFrame (code : Byte) (r : Reply) : List Byte :=
  let counted := u8 (r.body.length + 2) ++ [code] ++ u8 r.status.code ++ r.body
  [0x7E] ++ counted ++ u8 (256 - byteSum counted % 256)

/-- The Host Link sends the response: LDIR is asserted and the receiver is ANSWERING until it is sent
(R195). -/
def State.respond (code : Byte) (r : Reply) (s : State) : State :=
  { s with link := { s.link with rx := .answering, tx := responseFrame code r } }

end Sys2Proof.Machine
end

