-- ==== Sys2Proof/Machine/Operands.lean ====
section
/-! DEFINITION. Operand forms: the field bytes of requests read by the layouts of sections 11.2 and 11.5,
and the length test of R195. A reader answers `none` where the bytes are not of the count their own
layout implies. -/

namespace Sys2Proof.Machine

/-! ### Named values from bytes; `none` for a byte that names no member of its list (R203) -/

def stationOf : Nat → Option Station
  | 1 => some .A
  | 2 => some .B
  | _ => none

def positionOf : Nat → Option Position
  | 1 => some .one
  | 2 => some .two
  | _ => none

def viewOf : Nat → Option View
  | 1 => some .stagedFirst
  | 2 => some .committed
  | _ => none

def kindOf : Nat → Option Kind
  | 1 => some .pattern
  | 2 => some .schedule
  | 3 => some .site
  | _ => none

/-- A contactor's byte of the site record: not configured, {A}, {B} or {A,B}. -/
def pathOf : Nat → Option (Option Path)
  | 0 => some none
  | 1 => some (some .a)
  | 2 => some (some .b)
  | 3 => some (some .ab)
  | _ => none

/-- A number below `n`, as an index. -/
def finOf (n v : Nat) : Option (Fin n) := if h : v < n then some ⟨v, h⟩ else none

/-- The record identity of a kind and an index, with the field codes of R160. -/
def recordIdOf (kind index : Nat) : Except Reply RecordId :=
  match kindOf kind with
  | none => .error (Reply.fieldError 19)
  | some .pattern =>
    match finOf 32 index with
    | some slot => .ok (.pattern slot)
    | none => .error (Reply.fieldError 1)
  | some .schedule =>
    match finOf 64 index with
    | some e => .ok (.schedule e)
    | none => .error (Reply.fieldError 24)
  | some .site => if index = 0 then .ok .site else .error (Reply.fieldError 20)

/-! ### Taking numbers from the front of the bytes -/

/-- `n` bytes as one number, and the bytes after them. -/
def takeNat (n : Nat) (bytes : List Byte) : Option (Nat × List Byte) :=
  if bytes.length < n then none else some (beNat (bytes.take n), bytes.drop n)

/-- `n` items read one after another. -/
def takeMany {α : Type} (p : List Byte → Option (α × List Byte)) :
    Nat → List Byte → Option (List α × List Byte)
  | 0, bytes => some ([], bytes)
  | n + 1, bytes =>
    match p bytes with
    | none => none
    | some (x, rest) =>
      match takeMany p n rest with
      | none => none
      | some (xs, rest) => some (x :: xs, rest)

/-- A list: a count byte and its entries (R203). -/
def takeList {α : Type} (p : List Byte → Option (α × List Byte)) (bytes : List Byte) :
    Option (List α × List Byte) :=
  match bytes with
  | [] => none
  | n :: rest => takeMany p n.toNat rest

/-- One character of a text. -/
def takeByte (bytes : List Byte) : Option (Byte × List Byte) :=
  match bytes with
  | [] => none
  | b :: rest => some (b, rest)

/-! ### Records as sent: numbers not yet checked against their ranges -/

structure RawWindow where
  tower : Nat
  ratioLow : Nat
  ratioHigh : Nat
  centre : Int
  halfWidth : Nat
deriving DecidableEq, Repr

structure RawPattern where
  state : Nat
  station : Nat
  label : List Byte
  powerStep : Nat
  settle : Nat
  fallback : Nat
  stages : List (List (Nat × Nat))
  windows : List RawWindow
deriving DecidableEq, Repr

structure RawEntry where
  state : Nat
  station : Nat
  firstDay : Nat
  lastDay : Nat
  minute : Nat
  target : Nat
  precedence : Nat
deriving DecidableEq, Repr

structure RawSite where
  config : List Nat
  towersA : Nat
  towersB : Nat
  coilPulse : Nat
  travelLimit : Nat
  slowThreshold : Nat
  concurrency : Nat
  carrierOffWait : Nat
  toleranceRun : Nat
  silenceLimit : Nat
  holdLimit : Nat
  maintenance : Nat
  form : Nat
  code : List Byte
deriving DecidableEq, Repr

def takeSetting (bytes : List Byte) : Option ((Nat × Nat) × List Byte) :=
  match bytes with
  | c :: p :: rest => some ((c.toNat, p.toNat), rest)
  | _ => none

def takeWindow (bytes : List Byte) : Option (RawWindow × List Byte) :=
  match bytes with
  | t :: l1 :: l0 :: h1 :: h0 :: c1 :: c0 :: w1 :: w0 :: rest =>
    some ({ tower := t.toNat, ratioLow := beNat [l1, l0], ratioHigh := beNat [h1, h0],
            centre := beInt16 c1 c0, halfWidth := beNat [w1, w0] }, rest)
  | _ => none

def takeStages (bytes : List Byte) : Option (List (List (Nat × Nat)) × List Byte) :=
  takeList (takeList takeSetting) bytes

/-- A pattern record without content: the state byte alone. -/
def RawPattern.bare (state : Nat) : RawPattern :=
  { state := state, station := 0, label := [], powerStep := 0, settle := 0, fallback := 0xFF,
    stages := [], windows := [] }

/-- A pattern record as STAGE sends it. A VACANT record ends after its state; a state byte that names no
member implies no count (section 11.2). The version is read and ignored (R29). -/
def readPattern (bytes : List Byte) : Option RawPattern := do
  let (state, rest) ← takeNat 1 bytes
  if state = 1 then (if rest.isEmpty then some (RawPattern.bare state) else none)
  else if state ≠ 2 then some (RawPattern.bare state)
  else
    let (station, rest) ← takeNat 1 rest
    let (label, rest) ← takeList takeByte rest
    let (powerStep, rest) ← takeNat 1 rest
    let (settle, rest) ← takeNat 1 rest
    let (fallback, rest) ← takeNat 1 rest
    let (_, rest) ← takeNat 2 rest
    let (stages, rest) ← takeStages rest
    let (windows, rest) ← takeList takeWindow rest
    if rest.isEmpty then
      some { state, station, label, powerStep, settle, fallback, stages, windows }
    else none

def RawEntry.bare (state : Nat) : RawEntry :=
  { state := state, station := 0, firstDay := 0, lastDay := 0, minute := 0, target := 0,
    precedence := 0 }

/-- A schedule entry as STAGE sends it; it carries no last-fired date. -/
def readEntry (bytes : List Byte) : Option RawEntry := do
  let (state, rest) ← takeNat 1 bytes
  if state = 1 then (if rest.isEmpty then some (RawEntry.bare state) else none)
  else if state ≠ 2 ∧ state ≠ 3 then some (RawEntry.bare state)
  else
    let (station, rest) ← takeNat 1 rest
    let (firstDay, rest) ← takeNat 2 rest
    let (lastDay, rest) ← takeNat 2 rest
    let (minute, rest) ← takeNat 2 rest
    let (target, rest) ← takeNat 1 rest
    let (precedence, rest) ← takeNat 1 rest
    if rest.isEmpty then
      some { state, station, firstDay, lastDay, minute, target, precedence }
    else none

/-- The site code field: form 2 is followed by eight bytes, forms 1 and 3 by none; a form that names no
member implies no count (section 11.2). -/
def readCode (bytes : List Byte) : Option (Nat × List Byte) :=
  match bytes with
  | [] => none
  | form :: rest =>
    if form.toNat = 2 then (if rest.length = 8 then some (2, rest) else none)
    else if form.toNat = 1 ∨ form.toNat = 3 then
      (if rest.isEmpty then some (form.toNat, []) else none)
    else some (form.toNat, [])

/-- A site record as STAGE sends it. -/
def readSite (bytes : List Byte) : Option RawSite := do
  let (config, rest) ← takeMany (takeNat 1) 48 bytes
  let (towersA, rest) ← takeNat 1 rest
  let (towersB, rest) ← takeNat 1 rest
  let (coilPulse, rest) ← takeNat 2 rest
  let (travelLimit, rest) ← takeNat 2 rest
  let (slowThreshold, rest) ← takeNat 2 rest
  let (concurrency, rest) ← takeNat 1 rest
  let (carrierOffWait, rest) ← takeNat 1 rest
  let (toleranceRun, rest) ← takeNat 1 rest
  let (silenceLimit, rest) ← takeNat 2 rest
  let (holdLimit, rest) ← takeNat 1 rest
  let (maintenance, rest) ← takeNat 4 rest
  let (form, code) ← readCode rest
  some { config, towersA, towersB, coilPulse, travelLimit, slowThreshold, concurrency,
         carrierOffWait, toleranceRun, silenceLimit, holdLimit, maintenance, form, code }

/-! ### STAGE and AMEND -/

/-- The record a STAGE carries. -/
inductive RawRecord
  | none
  | pattern (r : RawPattern)
  | entry (r : RawEntry)
  | site (r : RawSite)
deriving DecidableEq, Repr

structure StageFields where
  kind : Nat
  index : Nat
  action : Nat
  record : RawRecord
deriving DecidableEq, Repr

/-- The fields of a STAGE. A kind or an action that names no member implies no count. -/
def readStage (fields : List Byte) : Option StageFields :=
  match fields with
  | [] => none
  | kind :: rest =>
    let at_ (n : Nat) : Nat := ((rest[n]?).getD 0).toNat
    match kindOf kind.toNat with
    | none => some ⟨kind.toNat, at_ 0, at_ 1, .none⟩
    | some k =>
      match rest with
      | index :: action :: bytes =>
        if action.toNat = 2 then
          (if bytes.isEmpty then some ⟨kind.toNat, index.toNat, 2, .none⟩ else none)
        else if action.toNat = 1 then
          match k with
          | .pattern => (readPattern bytes).map fun r => ⟨kind.toNat, index.toNat, 1, .pattern r⟩
          | .schedule => (readEntry bytes).map fun r => ⟨kind.toNat, index.toNat, 1, .entry r⟩
          | .site => (readSite bytes).map fun r => ⟨kind.toNat, index.toNat, 1, .site r⟩
        else some ⟨kind.toNat, index.toNat, action.toNat, .none⟩
      | _ => none

/-- Replace one field of a pattern by its encoding (R33); `none` for bytes of the wrong count. Only the
field ids that an AMEND may name are read. -/
def RawPattern.amend (r : RawPattern) (id : Nat) (value : List Byte) : Option RawPattern :=
  match id with
  | 2 => if value.length = 1 then some { r with station := beNat value } else none
  | 3 =>
    match takeList takeByte value with
    | some (label, []) => some { r with label := label }
    | _ => none
  | 4 => if value.length = 1 then some { r with powerStep := beNat value } else none
  | 5 =>
    match takeStages value with
    | some (stages, []) => some { r with stages := stages }
    | _ => none
  | 6 =>
    match takeList takeWindow value with
    | some (windows, []) => some { r with windows := windows }
    | _ => none
  | 7 => if value.length = 1 then some { r with settle := beNat value } else none
  | 8 => if value.length = 1 then some { r with fallback := beNat value } else none
  | _ => none

/-- Replace one field of a schedule entry by its encoding (R147). -/
def RawEntry.amend (r : RawEntry) (id : Nat) (value : List Byte) : Option RawEntry :=
  match id with
  | 1 => if value.length = 1 then some { r with state := beNat value } else none
  | 2 => if value.length = 1 then some { r with station := beNat value } else none
  | 3 => if value.length = 2 then some { r with firstDay := beNat value } else none
  | 4 => if value.length = 2 then some { r with lastDay := beNat value } else none
  | 5 => if value.length = 2 then some { r with minute := beNat value } else none
  | 6 => if value.length = 1 then some { r with target := beNat value } else none
  | 7 => if value.length = 1 then some { r with precedence := beNat value } else none
  | _ => none

/-- Replace one field of a site record by its encoding (R163). -/
def RawSite.amend (r : RawSite) (id : Nat) (value : List Byte) : Option RawSite :=
  match id with
  | 1 => if value.length = 48 then some { r with config := value.map (·.toNat) } else none
  | 2 =>
    match value with
    | [a, b] => some { r with towersA := a.toNat, towersB := b.toNat }
    | _ => none
  | 3 => if value.length = 2 then some { r with coilPulse := beNat value } else none
  | 4 => if value.length = 2 then some { r with travelLimit := beNat value } else none
  | 5 => if value.length = 2 then some { r with slowThreshold := beNat value } else none
  | 6 => if value.length = 1 then some { r with concurrency := beNat value } else none
  | 7 => if value.length = 1 then some { r with carrierOffWait := beNat value } else none
  | 8 => if value.length = 1 then some { r with toleranceRun := beNat value } else none
  | 9 => if value.length = 2 then some { r with silenceLimit := beNat value } else none
  | 10 => if value.length = 1 then some { r with holdLimit := beNat value } else none
  | 11 => if value.length = 4 then some { r with maintenance := beNat value } else none
  | 12 => (readCode value).map fun x => { r with form := x.1, code := x.2 }
  | _ => none

/-- The field ids an AMEND of the kind may name (R33, R147, R163). -/
def amendIds : Kind → List Nat
  | .pattern => [2, 3, 4, 5, 6, 7, 8]
  | .schedule => [1, 2, 3, 4, 5, 6, 7]
  | .site => [1, 2, 3, 4, 5, 6, 7, 8, 9, 10, 11, 12]

def RawSite.bare : RawSite :=
  { config := [], towersA := 0, towersB := 0, coilPulse := 0, travelLimit := 0, slowThreshold := 0,
    concurrency := 0, carrierOffWait := 0, toleranceRun := 0, silenceLimit := 0, holdLimit := 0,
    maintenance := 0, form := 1, code := [] }

/-- Whether an AMEND's value has the count its field implies. -/
def amendFits (kind : Kind) (id : Nat) (value : List Byte) : Bool :=
  match kind with
  | .pattern => ((RawPattern.bare 2).amend id value).isSome
  | .schedule => ((RawEntry.bare 2).amend id value).isSome
  | .site => (RawSite.bare.amend id value).isSome

structure AmendFields where
  kind : Nat
  index : Nat
  id : Nat
  value : List Byte
deriving DecidableEq, Repr

/-- The fields of an AMEND. A kind or a field id that names no member implies no count. -/
def readAmend (fields : List Byte) : Option AmendFields :=
  match fields with
  | [] => none
  | kind :: rest =>
    let at_ (n : Nat) : Nat := ((rest[n]?).getD 0).toNat
    match kindOf kind.toNat with
    | none => some ⟨kind.toNat, at_ 0, at_ 1, []⟩
    | some k =>
      match rest with
      | index :: id :: value =>
        if (amendIds k).contains id.toNat then
          (if amendFits k id.toNat value then some ⟨kind.toNat, index.toNat, id.toNat, value⟩ else none)
        else some ⟨kind.toNat, index.toNat, id.toNat, value⟩
      | _ => none

/-! ### The request summary (section 11.2) -/

inductive Req
  | lookup
  | lookupNext
  | readStation
  | readTransition
  | readContactor
  | readReadings
  | readClock
  | readStore
  | readHolds
  | stage
  | amend
  | retire
  | discard
  | discardAll
  | commit
  | setClock
  | resetCounters
  | clearContactorFault
  | transition
  | abort
  | continueHeld
  | setHold
  | clearHold
  | carrierHold
  | carrierRelease
  | manualMove
  | suspendSchedule
  | resumeSchedule
  | saveCounters
  | presentCode
  | revoke
  | readAttention
  | clearAttention
  | maskAttention
deriving DecidableEq, Repr

def Req.code : Req → Nat
  | .lookup => 0x10
  | .lookupNext => 0x11
  | .readStation => 0x12
  | .readTransition => 0x13
  | .readContactor => 0x14
  | .readReadings => 0x15
  | .readClock => 0x16
  | .readStore => 0x17
  | .readHolds => 0x18
  | .stage => 0x20
  | .amend => 0x21
  | .retire => 0x22
  | .discard => 0x23
  | .discardAll => 0x24
  | .commit => 0x25
  | .setClock => 0x26
  | .resetCounters => 0x27
  | .clearContactorFault => 0x28
  | .transition => 0x30
  | .abort => 0x31
  | .continueHeld => 0x32
  | .setHold => 0x33
  | .clearHold => 0x34
  | .carrierHold => 0x35
  | .carrierRelease => 0x36
  | .manualMove => 0x37
  | .suspendSchedule => 0x38
  | .resumeSchedule => 0x39
  | .saveCounters => 0x3A
  | .presentCode => 0x40
  | .revoke => 0x41
  | .readAttention => 0x42
  | .clearAttention => 0x43
  | .maskAttention => 0x44

/-- The requests in the order of their codes. -/
def allRequests : List Req :=
  [.lookup, .lookupNext, .readStation, .readTransition, .readContactor, .readReadings, .readClock,
   .readStore, .readHolds, .stage, .amend, .retire, .discard, .discardAll, .commit, .setClock,
   .resetCounters, .clearContactorFault, .transition, .abort, .continueHeld, .setHold, .clearHold,
   .carrierHold, .carrierRelease, .manualMove, .suspendSchedule, .resumeSchedule, .saveCounters,
   .presentCode, .revoke, .readAttention, .clearAttention, .maskAttention]

/-- The request a code names, if it is in the summary (R195). -/
def requestOf (code : Nat) : Option Req := allRequests.find? fun r => r.code = code

/-- Whether a request requires edit authority (section 11.2). -/
def Req.needsAuthority : Req → Bool
  | .stage | .amend | .retire | .discard | .discardAll | .commit | .setClock | .resetCounters
  | .clearContactorFault | .transition | .abort | .continueHeld | .setHold | .clearHold
  | .carrierHold | .carrierRelease | .manualMove | .suspendSchedule | .resumeSchedule
  | .saveCounters => true
  | .lookup | .lookupNext | .readStation | .readTransition | .readContactor | .readReadings
  | .readClock | .readStore | .readHolds | .presentCode | .revoke | .readAttention
  | .clearAttention | .maskAttention => false

/-- Whether the number of field bytes is the one the request's layout gives (R195 order 3). -/
def Req.lengthFits (r : Req) (fields : List Byte) : Bool :=
  match r with
  | .lookup => fields.length = 3
  | .readStation | .readTransition | .readReadings | .resetCounters | .clearContactorFault | .abort
  | .continueHeld | .clearHold | .carrierHold | .carrierRelease | .suspendSchedule | .resumeSchedule
  | .clearAttention => fields.length = 1
  | .readContactor | .retire | .discard | .transition | .manualMove | .maskAttention =>
    fields.length = 2
  | .setClock => fields.length = 6
  | .setHold => fields.length = 5
  | .presentCode => fields.length = 8
  | .stage => (readStage fields).isSome
  | .amend => (readAmend fields).isSome
  | .lookupNext | .readClock | .readStore | .readHolds | .discardAll | .commit | .saveCounters
  | .revoke | .readAttention => fields.isEmpty

/-- The field byte at an offset, as a number. -/
def fieldAt (fields : List Byte) (n : Nat) : Nat := (fields.getD n 0).toNat

/-- The big-endian number in two field bytes. -/
def field16 (fields : List Byte) (n : Nat) : Nat := 256 * fieldAt fields n + fieldAt fields (n + 1)

end Sys2Proof.Machine
end

