-- ==== Sys2Proof/Machine/Checks.lean ====
section
/-! DEFINITION. The staging checks of R2, R31, R32 and R147, the staging queue's entries, the tables as
they would stand after a commit, and commit validation (R170). -/

namespace Sys2Proof.Machine

/-! ### Staging checks -/

/-- The first member of a list that a test turns up. -/
def firstSome {α β : Type} (f : α → Option β) : List α → Option β
  | [] => none
  | x :: xs =>
    match f x with
    | some y => some y
    | none => firstSome f xs

/-- Every member converted, or `none` where one does not convert. -/
def allOf {α β : Type} (f : α → Option β) : List α → Option (List β)
  | [] => some []
  | x :: xs =>
    match f x, allOf f xs with
    | some y, some ys => some (y :: ys)
    | _, _ => none

/-- Check 7 of R31: the settings with their contactors and positions in range. -/
def settingOf (x : Nat × Nat) : Option Setting :=
  match finOf 48 x.1, positionOf x.2 with
  | some c, some p => some ⟨c, p⟩
  | _, _ => none

/-- Check 9 of R31 under R32: some reference site record configures the contactor. -/
def configuredIn (refs : List Site) (c : Fin 48) : Bool := refs.any fun x => x.config[c].isSome

/-- Check 10 of R31 under R32: a reference that configures the contactor gives it a path including the
station. -/
def inPathOf (refs : List Site) (st : Station) (c : Fin 48) : Bool :=
  refs.any fun x =>
    match x.config[c] with
    | some p => p.has st
    | none => false

/-- Whether the tower (its number less one) is in the station's monitored-tower set. -/
def Site.monitors (x : Site) (st : Station) (tower : Fin 8) : Bool :=
  (x.towers.get st).getLsbD tower.val

def windowOf (w : RawWindow) : Option Window :=
  match finOf 8 (w.tower - 1) with
  | some t =>
    if w.tower = 0 then none
    else some { tower := t, ratioLow := w.ratioLow, ratioHigh := w.ratioHigh, centre := w.centre,
                halfWidth := w.halfWidth }
  | none => none

/-- The staging check of a pattern record, in the order of R31, checks 2 to 18; check 1 is R160's. -/
def checkPattern (refs : List Site) (r : RawPattern) : Except Reply Pattern :=
  match stationOf r.station with
  | none => .error (Reply.fieldError 2)
  | some st =>
    if 8 < r.label.length ∨ r.label.any (fun b => decide (b.toNat < 0x20 ∨ 0x7E < b.toNat)) then
      .error (Reply.fieldError 3)
    else if r.powerStep < 1 ∨ 8 < r.powerStep then .error (Reply.fieldError 4)
    else if r.stages.length < 1 ∨ 6 < r.stages.length then .error (Reply.fieldError 5)
    else if r.stages.any (fun g => decide (g.length < 1 ∨ 16 < g.length)) then
      .error (Reply.fieldError 6)
    else
      match allOf (allOf settingOf) r.stages with
      | none => .error (Reply.fieldError 7)
      | some stages =>
        let listed := stages.flatten.map (·.contactor)
        if ¬ listed.Nodup then .error (Reply.fieldError 8)
        else if listed.any (fun c => !configuredIn refs c) then .error (Reply.fieldError 9)
        else
          match listed.find? (fun c => !inPathOf refs st c) with
          | some c => .error ⟨.notInPath, u8 c.val⟩
          | none =>
            match allOf windowOf r.windows with
            | none => .error (Reply.fieldError 10)
            | some windows =>
              if ¬ (windows.map (·.tower)).Nodup then .error (Reply.fieldError 11)
              else if windows.any (fun w => !refs.any fun x => x.monitors st w.tower) then
                .error (Reply.fieldError 12)
              else if windows.any (fun w => decide (9999 < w.ratioLow ∨ 9999 < w.ratioHigh ∨
                  w.ratioHigh < w.ratioLow)) then .error (Reply.fieldError 13)
              else if windows.any (fun w => decide (w.centre < -1800 ∨ 1800 < w.centre)) then
                .error (Reply.fieldError 14)
              else if windows.any (fun w => decide (900 < w.halfWidth)) then
                .error (Reply.fieldError 15)
              else if r.settle < 1 ∨ 120 < r.settle then .error (Reply.fieldError 16)
              else
                let result (fallback : Option (Fin 32)) : Pattern :=
                  { station := st, label := r.label, powerStep := r.powerStep, stages := stages,
                    windows := windows, settle := r.settle, fallback := fallback }
                if r.fallback = 0xFF then .ok (result none)
                else
                  match finOf 32 r.fallback with
                  | some f => .ok (result (some f))
                  | none => .error (Reply.fieldError 17)

/-- The staging check of a schedule entry, in the order of R147; check 24 is R160's. -/
def checkEntry (r : RawEntry) : Except Reply Entry :=
  if r.state ≠ 2 ∧ r.state ≠ 3 then .error (Reply.fieldError 25)
  else
    match stationOf r.station with
    | none => .error (Reply.fieldError 26)
    | some st =>
      if r.firstDay < 1 ∨ 366 < r.firstDay then .error (Reply.fieldError 27)
      else if r.lastDay < 1 ∨ 366 < r.lastDay then .error (Reply.fieldError 28)
      else if 1439 < r.minute then .error (Reply.fieldError 29)
      else
        match finOf 32 r.target with
        | none => .error (Reply.fieldError 30)
        | some target =>
          if 3 < r.precedence then .error (Reply.fieldError 31)
          else .ok { enabled := r.state = 2, station := st, firstDay := r.firstDay,
                     lastDay := r.lastDay, minute := r.minute, target := target,
                     precedence := r.precedence }

/-- The staging check of a site record, in the order of R2. -/
def checkSite (r : RawSite) : Except Reply (Site × CodeForm) :=
  if r.config.any (fun v => (pathOf v).isNone) then .error (Reply.fieldError 32)
  else if r.coilPulse < 20 ∨ 500 < r.coilPulse then .error (Reply.fieldError 34)
  else if r.travelLimit < 100 ∨ 3000 < r.travelLimit ∨ r.travelLimit % 10 ≠ 0 then
    .error (Reply.fieldError 35)
  else if r.slowThreshold < 50 ∨ r.travelLimit < r.slowThreshold + 10 ∨ r.slowThreshold % 10 ≠ 0 then
    .error (Reply.fieldError 36)
  else if r.concurrency < 1 ∨ 4 < r.concurrency then .error (Reply.fieldError 37)
  else if r.carrierOffWait < 1 ∨ 30 < r.carrierOffWait then .error (Reply.fieldError 38)
  else if r.toleranceRun < 1 ∨ 15 < r.toleranceRun then .error (Reply.fieldError 39)
  else if r.silenceLimit < 10 ∨ 600 < r.silenceLimit then .error (Reply.fieldError 40)
  else if r.holdLimit < 1 ∨ 120 < r.holdLimit then .error (Reply.fieldError 41)
  else if r.maintenance ≠ 0 ∧ (r.maintenance < 1000 ∨ 10000000 < r.maintenance) then
    .error (Reply.fieldError 42)
  else
    let site : Site :=
      { config := Vector.ofFn fun c : Fin 48 => (pathOf (r.config.getD c.val 0)).getD none
        towers := ⟨BitVec.ofNat 8 r.towersA, BitVec.ofNat 8 r.towersB⟩
        coilPulse := r.coilPulse, travelLimit := r.travelLimit, slowThreshold := r.slowThreshold
        concurrency := r.concurrency, carrierOffWait := r.carrierOffWait
        toleranceRun := r.toleranceRun, silenceLimit := r.silenceLimit, holdLimit := r.holdLimit
        maintenance := r.maintenance }
    match r.form with
    | 1 => .ok (site, .absent)
    | 2 => .ok (site, .set r.code)
    | 3 => .ok (site, .removal)
    | _ => .error (Reply.fieldError 43)

/-! ### Staged and working content back in the form an AMEND merges into (R163) -/

def Pattern.raw (p : Pattern) : RawPattern :=
  { state := 2, station := Station.code p.station, label := p.label, powerStep := p.powerStep,
    settle := p.settle, fallback := (p.fallback.map (·.val)).getD 0xFF,
    stages := p.stages.map fun g => g.map fun x => (x.contactor.val, x.position.code),
    windows := p.windows.map fun w =>
      { tower := w.tower.val + 1, ratioLow := w.ratioLow, ratioHigh := w.ratioHigh,
        centre := w.centre, halfWidth := w.halfWidth } }

def Entry.raw (e : Entry) : RawEntry :=
  { state := if e.enabled then 2 else 3, station := Station.code e.station, firstDay := e.firstDay,
    lastDay := e.lastDay, minute := e.minute, target := e.target.val, precedence := e.precedence }

def CodeForm.raw : CodeForm → Nat × List Byte
  | .absent => (1, [])
  | .set code => (2, code)
  | .removal => (3, [])

def Site.raw (x : Site) (code : CodeForm) : RawSite :=
  { config := allContactors.map fun c =>
      match x.config[c] with
      | some p => p.code
      | none => 0
    towersA := x.towers.a.toNat, towersB := x.towers.b.toNat, coilPulse := x.coilPulse,
    travelLimit := x.travelLimit, slowThreshold := x.slowThreshold, concurrency := x.concurrency,
    carrierOffWait := x.carrierOffWait, toleranceRun := x.toleranceRun,
    silenceLimit := x.silenceLimit, holdLimit := x.holdLimit, maintenance := x.maintenance,
    form := code.raw.1, code := code.raw.2 }

/-! ### The staging queue (R159) -/

def StagedEntry.id : StagedEntry → RecordId
  | .pattern slot _ => .pattern slot
  | .schedule e _ => .schedule e
  | .site _ _ => .site

def StagedEntry.isRetire : StagedEntry → Bool
  | .pattern _ none => true
  | .schedule _ none => true
  | _ => false

/-- The record's entry in the queue. -/
def State.staged (s : State) (r : RecordId) : Option StagedEntry := s.staging.find? fun x => x.id = r

/-- The position of the record's entry, 1 for the oldest; one past the end where it has none. -/
def State.stagedPosition (s : State) (r : RecordId) : Nat :=
  (s.staging.findIdx fun x => x.id = r) + 1

/-- Put an entry in the queue: in place of the record's entry, else at the back (R159, R162). -/
def putEntry (e : StagedEntry) (queue : List StagedEntry) : List StagedEntry :=
  if queue.any (fun x => x.id = e.id) then queue.map fun x => if x.id = e.id then e else x
  else queue ++ [e]

/-- The staged site record, if the queue holds one (R32). -/
def State.stagedSite (s : State) : Option (Site × CodeForm) :=
  firstSome (fun x => match x with
    | .site site code => some (site, code)
    | _ => none) s.staging

/-- The reference site records of R32: the working one and the staged one. -/
def State.referenceSites (s : State) : List Site :=
  s.tables.site ::
    match s.stagedSite with
    | some x => [x.1]
    | none => []

/-- The version a REPLACE gives a slot (R29). -/
def State.nextVersion (s : State) (slot : Fin 32) : Nat :=
  match s.pattern slot with
  | some v => if v.version = 65535 then 1 else v.version + 1
  | none => 1

/-! ### The after-tables (R170) -/

/-- The site code after a commit of a staged form (R3). -/
def CodeForm.apply (form : CodeForm) (working : Option (List Byte)) : Option (List Byte) :=
  match form with
  | .absent => working
  | .set code => some code
  | .removal => none

/-- One carried entry applied to the tables; `version` gives a REPLACE of a slot its version. -/
def StagedEntry.apply (version : Fin 32 → Nat) (e : StagedEntry) (t : Tables) : Tables :=
  match e with
  | .pattern slot (some p) =>
    { t with patterns := t.patterns.set slot (some ⟨p, version slot⟩) }
  | .pattern slot none => { t with patterns := t.patterns.set slot none }
  | .schedule i content => { t with schedule := t.schedule.set i content }
  | .site x form => { t with site := x, code := form.apply t.code }

/-- The tables with every entry of the queue applied. -/
def State.afterTables (s : State) (version : Fin 32 → Nat) : Tables :=
  s.staging.foldl (fun t e => e.apply version t) s.tables

/-- The versions fixed when the commit was accepted (R169). -/
def CommitRun.version (run : CommitRun) (slot : Fin 32) : Nat :=
  ((run.versions.find? fun x => x.1 = slot).map (·.2)).getD 1

/-! ### Validation (R170) -/

/-- Live use: the slot is a station's in-service slot, the target of a transition in flight or the target
of a pending request (R171). -/
def State.slotInUse (s : State) (slot : Fin 32) : Bool :=
  [Station.A, Station.B].any fun st =>
    (match (s.station st).inService with
     | some v => v.snap.slot = slot
     | none => false) ||
    (decide ((s.unit st).phase ≠ .idle) &&
      match (s.unit st).target with
      | some t => t.slot = slot
      | none => false) ||
    (match (s.station st).request with
     | some r => r.slot = slot
     | none => false)

/-- A site record gives the contactor a path that includes the station. -/
def Site.reaches (x : Site) (st : Station) (c : Fin 48) : Bool :=
  match x.config[c] with
  | some p => p.has st
  | none => false

/-- Every contactor the pattern lists is configured with a path including the station. -/
def Pattern.fitsPaths (p : Pattern) (site : Site) (st : Station) : Bool :=
  p.settings.all fun x => site.reaches st x.contactor

/-- Every window is on a tower of the station's monitored-tower set. -/
def Pattern.fitsTowers (p : Pattern) (site : Site) : Bool :=
  p.windows.all fun w => site.monitors p.station w.tower

/-- The slot is ACTIVE for the station in the tables. -/
def Tables.activeFor (t : Tables) (slot : Fin 32) (st : Station) : Bool :=
  match t.patterns[slot] with
  | some v => v.pattern.station = st
  | none => false

/-- Test a: carried as RETIRE, or as a REPLACE that gives the slot the other station, while in use. -/
def State.takesFromUse (s : State) (slot : Fin 32) : Bool :=
  s.slotInUse slot &&
  match s.staged (.pattern slot) with
  | some (.pattern _ none) => true
  | some (.pattern _ (some p)) =>
    (match s.pattern slot with
     | some v => decide (v.pattern.station ≠ p.station)
     | none => false)
  | _ => false

/-- Test b: the commit carries a site record in which a station's in-service snapshot of the slot no
longer fits. -/
def State.breaksSnapshot (s : State) (slot : Fin 32) : Bool :=
  match s.stagedSite with
  | none => false
  | some (site, _) =>
    [Station.A, Station.B].any fun st =>
      match (s.station st).inService with
      | some v => v.snap.slot = slot && !v.snap.pattern.fitsPaths site st
      | none => false

/-- The tests of R170 at one pattern slot, in the order a to f. -/
def State.validateSlot (s : State) (after : Tables) (slot : Fin 32) : Option Reply :=
  let refuse (status : Status) := some (Reply.record status (.pattern slot))
  if s.takesFromUse slot then refuse .inUse
  else if s.breaksSnapshot slot then refuse .inUse
  else
    match after.patterns[slot] with
    | none => none
    | some v =>
      let p := v.pattern
      let tested := (s.staged (.pattern slot)).isSome || s.stagedSite.isSome
      if tested && !p.fitsPaths after.site p.station then refuse .referenced
      else if tested && !p.fitsTowers after.site then refuse .referenced
      else
        match p.fallback with
        | none => none
        | some f =>
          if f = slot then refuse .referenced
          else if !after.activeFor f p.station then refuse .referenced
          else none

/-- The test of R170 at one schedule entry. -/
def validateEntry (after : Tables) (i : Fin 64) : Option Reply :=
  match after.schedule[i] with
  | some e =>
    if e.enabled && !after.activeFor e.target e.station then
      some (Reply.record .referenced (.schedule i))
    else none
  | none => none

/-- Commit validation: pattern slots, then schedule entries; the first failing test refuses (R170). -/
def State.validate (s : State) : Option Reply :=
  let after := s.afterTables s.nextVersion
  match firstSome (s.validateSlot after) (List.finRange 32) with
  | some r => some r
  | none => firstSome (validateEntry after) (List.finRange 64)

end Sys2Proof.Machine
end

