-- ==== Sys2Proof/Machine/Event.lean ====
section
/-! DEFINITION. One event while it is being taken: the state and what the event still has to do in it. -/

namespace Sys2Proof.Machine

/-- What an event causes besides its own actions, taken in the same event after them (log entry 12). -/
inductive FollowUp
  /-- contactor claims became none: the report of R16 to both units -/
  | releaseReport
  /-- a waiting unit's retry (R65) -/
  | retry (st : Station)
  /-- the unit returned to IDLE: its pending request is handed over (R54, R82) -/
  | handOff (st : Station)
  /-- a site-record commit ended: both pending requests are handed over (R54) -/
  | handOffs
deriving DecidableEq, Repr

structure Ev where
  s : State
  due : List FollowUp
deriving DecidableEq, Repr

/-- Act on the state of the event. -/
def Ev.on (f : State → State) (e : Ev) : Ev := { e with s := f e.s }

/-- Add a follow-up behind those already due. -/
def Ev.push (x : FollowUp) (e : Ev) : Ev := { e with due := e.due ++ [x] }

/-- An event at a state, with nothing due yet. -/
def State.event (s : State) : Ev := { s := s, due := [] }

end Sys2Proof.Machine
end

