-- ==== Sys2Proof/Machine/Store.lean ====
section
/-! DEFINITION. The Record Store between resets: banks, the marker in force, job start, OPS_SAVE requests
and abandonment (R178 to R186). -/

namespace Sys2Proof.Machine

/-! ### Segments and banks -/

/-- The ten segments other than MARK, in the order of R183. -/
def tableSegments : List Segment :=
  [.p 0, .p 1, .p 2, .p 3, .s 0, .s 1, .s 2, .s 3, .site, .ops]

def Segment.idx : Segment → Fin 11
  | .p n => ⟨n.val, by omega⟩
  | .s n => ⟨4 + n.val, by omega⟩
  | .site => 8
  | .ops => 9
  | .mark => 10

def State.pair (s : State) (seg : Segment) : BankPair := s.store.pairs[seg.idx]

def State.updStore (f : Store → Store) (s : State) : State := { s with store := f s.store }

def State.updPair (seg : Segment) (f : BankPair → BankPair) (s : State) : State :=
  s.updStore fun x => { x with pairs := x.pairs.set seg.idx (f x.pairs[seg.idx]) }

def BankPair.bank (p : BankPair) (which : Bool) : Bank := if which then p.bank1 else p.bank0

def BankPair.setBank (which : Bool) (b : Bank) (p : BankPair) : BankPair :=
  if which then { p with bank1 := b } else { p with bank0 := b }

/-- The segment of a pattern slot (R178). -/
def slotSegment (slot : Fin 32) : Segment := .p ⟨slot.val / 8, by omega⟩

/-- The segment of a schedule entry (R178). -/
def entrySegment (i : Fin 64) : Segment := .s ⟨i.val / 16, by omega⟩

def RecordId.segment : RecordId → Segment
  | .pattern slot => slotSegment slot
  | .schedule i => entrySegment i
  | .site => .site

/-- A segment's records as tables hold them (R178). -/
def Tables.records (t : Tables) : Segment → Records
  | .p n => .patterns (((List.finRange 32).filter fun i => i.val / 8 = n.val).map fun i => t.patterns[i])
  | .s n => .entries (((List.finRange 64).filter fun i => i.val / 16 = n.val).map fun i => t.schedule[i])
  | .site => .site t.site t.code
  | .ops => .none
  | .mark => .none

/-- The operations data as they stand (R179). -/
def State.opsData (s : State) : OpsData :=
  { counts := s.rows.toList.map fun r => (r.operations, r.hotMoves)
    saved := ⟨s.stations.a.saved, s.stations.b.saved⟩ }

/-! ### The marker in force (R180) -/

def State.markerBank (s : State) : Option Bank :=
  (s.pair .mark).current.map fun b => (s.pair .mark).bank b

/-- The number of the last completed job, 0 in a blank store (R180, R188). -/
def State.markerNumber (s : State) : Nat :=
  match s.markerBank with
  | some b => b.number
  | none => 0

def State.markerData (s : State) : Option MarkerData :=
  match s.markerBank with
  | some b =>
    match b.records with
    | .marker m => some m
    | _ => none
  | none => none

def State.lastHostCommit (s : State) : Nat :=
  match s.markerData with
  | some m => m.lastHost
  | none => 0

/-- The in-force number the marker lists for a segment, 0 where it lists none. -/
def State.inForceNumber (s : State) (seg : Segment) : Nat :=
  match s.markerData with
  | some m => m.inForce.getD seg.idx.val 0
  | none => 0

/-- The marker a job writes (R180). -/
def State.newMarker (s : State) (job : Job) : MarkerData :=
  { kind := job.kind
    lastHost := match job.kind with
      | .hostCommit => job.number
      | .opsSave => s.lastHostCommit
    inForce := tableSegments.map fun seg =>
      if job.list.contains seg then job.number else s.inForceNumber seg }

/-! ### Staleness (R178) -/

/-- A valid bank with a commit number above `c`. -/
def Bank.above (c : Nat) (seg : Segment) (b : Bank) : Bool := b.valid seg && decide (c < b.number)

/-- A pair is stale when its spare is valid above the marker in force, or, with no current bank, when
either of its banks is (R178, R189). -/
def BankPair.isStale (c : Nat) (seg : Segment) (p : BankPair) : Bool :=
  match p.current with
  | some b => (p.bank (!b)).above c seg
  | none => p.bank0.above c seg || p.bank1.above c seg

/-- The spare of a pair with no current bank: the bank that is not valid, or of two valid ones that of lower
number (R189; log entry 34 where neither is valid). -/
def BankPair.freeSpare (seg : Segment) (p : BankPair) : Bool :=
  match p.bank0.valid seg, p.bank1.valid seg with
  | true, true => decide (p.bank1.number < p.bank0.number)
  | true, false => true
  | false, _ => false

/-- A pair's spare and staleness as its current bank and its banks then stand (R189). -/
def BankPair.judgeSpare (c : Nat) (seg : Segment) (p : BankPair) : BankPair :=
  { p with
    spare := match p.current with
      | some b => !b
      | none => p.freeSpare seg
    stale := p.isStale c seg }

/-! ### Starting jobs (R182, R183) -/

/-- Begin a write: the bank it fills, the pair's spare, is erased (R181 step 1; log entry 20). -/
def State.beginWrite (seg : Segment) (s : State) : State :=
  s.updPair seg fun p => p.setBank p.spare Bank.erased

/-- The segment a job is writing: the first of its list not yet done, then the marker. -/
def Job.writing (job : Job) : Segment := job.left.headD .mark

/-- Start a job: it takes its number, forms its write list with the stale pairs, copies the operations
data if its list holds OPS, and begins its first write; `none` when all commit numbers are issued
(R182, R183). -/
def State.startJob (s : State) (w : WaitingJob) : Option State :=
  if 4294967295 ≤ s.store.highest then none
  else
    let list := tableSegments.filter fun seg => w.touched.contains seg || (s.pair seg).stale
    let job : Job :=
      { kind := w.kind, number := s.store.highest + 1, list := list, left := list,
        ops := if list.contains .ops then some s.opsData else none
        step := .erase }
    some ((s.updStore fun x => { x with highest := x.highest + 1, running := some job }).beginWrite
      job.writing)

/-- Record the last-job status of a kind (R185, R186). -/
def State.setStatus (kind : JobKind) (status : JobStatus) (s : State) : State :=
  s.updStore fun x =>
    match kind with
    | .hostCommit => { x with hostStatus := status }
    | .opsSave => { x with opsStatus := status }

/-- The Record Manager's side of an abandoned commit (R176): the set empties, and after a site-record
commit the pending requests are handed over. -/
def Ev.abandonCommit (e : Ev) : Ev :=
  let site := e.s.siteCommitRunning
  let e := e.on fun s => { s with commit := none }
  if site then e.push .handOffs else e

/-- A job's abandonment as its kind's owner sees it. -/
def Ev.jobAbandoned (kind : JobKind) (e : Ev) : Ev :=
  match kind with
  | .hostCommit => e.abandonCommit
  | .opsSave => e

/-- Start the front job of the list and leave the others waiting. A job that finds all numbers issued is
abandoned in its start event, and the next one starts (R182, R186; log entry 28). -/
def startFront : List WaitingJob → Ev → Ev
  | [], e => e.on (State.updStore fun x => { x with running := none, waiting := [] })
  | w :: rest, e =>
    match e.s.startJob w with
    | some s => { e with s := s.updStore fun x => { x with waiting := rest } }
    | none =>
      startFront rest
        (((e.on (State.setStatus w.kind (.failed none))).on
          (State.raise (.numbersExhausted w.kind))).jobAbandoned w.kind)

/-- Hand a job over: it starts if none runs, and otherwise joins the waiting jobs (R183). -/
def Ev.handJob (w : WaitingJob) (e : Ev) : Ev :=
  match e.s.store.running with
  | none => startFront (w :: e.s.store.waiting) e
  | some _ => e.on (State.updStore fun x => { x with waiting := x.waiting ++ [w] })

/-- What became of a requested OPS_SAVE (R184). -/
inductive SaveResult
  | started
  | joined
  | merged
deriving DecidableEq, Repr

def State.saveResult (s : State) : SaveResult :=
  if s.store.running.isNone then .started
  else if s.store.waiting.any (fun w => w.kind = .opsSave) then .merged
  else .joined

/-- Request an OPS_SAVE: it starts, joins the waiting jobs or is merged (R184). -/
def Ev.requestSave (e : Ev) : Ev :=
  match e.s.saveResult with
  | .merged =>
    e.on (State.updStore fun x => { x with
      waiting := x.waiting.map fun w => if w.kind = .opsSave then { w with merged := w.merged + 1 } else w })
  | _ => e.handJob { kind := .opsSave, touched := [.ops], merged := 0 }

/-! ### The writes of a job -/

/-- The records a job writes to a segment (R181): a HOST_COMMIT the after-tables with the versions fixed
at acceptance, an OPS_SAVE the working tables, either the OPS copy. -/
def State.jobRecords (s : State) (job : Job) (seg : Segment) : Records :=
  match seg with
  | .ops => .ops (job.ops.getD s.opsData)
  | .mark => .marker (s.newMarker job)
  | _ =>
    match job.kind with
    | .hostCommit =>
      (match s.commit with
       | some run => s.afterTables run.version
       | none => s.tables).records seg
    | .opsSave => s.tables.records seg

/-- The write in progress is read back complete: the spare bank holds its records under the job's
number (R181). -/
def State.finishWrite (job : Job) (seg : Segment) (s : State) : State :=
  let bank := Bank.written seg job.number (s.jobRecords job seg)
  s.updPair seg fun p => p.setBank p.spare bank

/-- The bank just written becomes current and the other bank the spare (R185). -/
def BankPair.turn (p : BankPair) : BankPair :=
  { p with current := some p.spare, spare := !p.spare, stale := false }

/-- The pairs of the job's list and MARK turn at the job's completion (R185). -/
def State.turnPairs (job : Job) (s : State) : State :=
  (job.list ++ [Segment.mark]).foldl (fun s seg => s.updPair seg BankPair.turn) s

/-- After an abandonment each pair is judged as its banks then stand (R186, R189). -/
def State.judgePairs (s : State) : State :=
  let c := s.markerNumber
  tableSegments.foldl (fun s seg => s.updPair seg (BankPair.judgeSpare c seg)) s

end Sys2Proof.Machine
end

