-- ==== Sys2Proof/Machine/Stations.lean ====
section
/-! DEFINITION. Station records: mute claims (R43), faults (R46), the station's side of a transition's
submission and ending (R47, R48), and supervision (R129). -/

namespace Sys2Proof.Machine

/-! ### Mute claims (R43) -/

def StationRecord.placeFault (r : StationRecord) : StationRecord :=
  { r with claims := { r.claims with fault := true } }

/-- Unit `u` places its TRANSITION claim on each station of a set. -/
def State.placeTransition (u : Station) (set : StationSet) (s : State) : State :=
  set.members.foldl (fun s st => s.updStation st fun r =>
    { r with claims := { r.claims with transition := r.claims.transition.set u true } }) s

/-- Unit `u` removes its TRANSITION claim from each station of a set. -/
def State.removeTransition (u : Station) (set : StationSet) (s : State) : State :=
  set.members.foldl (fun s st => s.updStation st fun r =>
    { r with claims := { r.claims with transition := r.claims.transition.set u false } }) s

/-! ### Faults and array state -/

/-- A fault handed to a station (R46): FAULTED with the reason handed, unless it has one already; FAULT is
placed; a MOVING station's prior state is cleared. -/
def StationRecord.takeFault (reason : FaultReason) (r : StationRecord) : StationRecord :=
  let r := r.placeFault
  match r.arrayState with
  | .unset | .inPattern => { r with arrayState := .faulted, faultReason := some reason }
  | .moving => { r with arrayState := .faulted, faultReason := some reason, prior := none }
  | .mixed => { r with arrayState := .faulted, faultReason := some (r.faultReason.getD reason) }
  | .faulted => r

def State.handFault (st : Station) (reason : FaultReason) (s : State) : State :=
  s.updStation st (StationRecord.takeFault reason)

/-- Hand one fault to every station of a path. -/
def State.faultPath (p : Path) (reason : FaultReason) (s : State) : State :=
  p.stations.members.foldl (fun s st => s.handFault st reason) s

/-- The first submission of the station's own transition: MOVING, with the prior state recorded (R47,
R48; log entry 16). -/
def StationRecord.startMoving (r : StationRecord) : StationRecord :=
  { r with arrayState := .moving, prior := some (r.arrayState, r.faultReason) }

/-- The FAILED_NO_MOVE ending (R48): a MOVING station returns to its prior state and reason. -/
def StationRecord.failedNoMove (r : StationRecord) : StationRecord :=
  match r.arrayState, r.prior with
  | .moving, some (state, reason) =>
    { r with arrayState := state, faultReason := reason, prior := none }
  | _, _ => r

/-- The FAILED_MIXED ending (R48): MIXED with the ending's reason, or still FAULTED; the snapshot absent,
FAULT placed, revised cleared (log entry 15 for a station in another state). -/
def StationRecord.failedMixed (reason : Option FaultReason) (r : StationRecord) : StationRecord :=
  let r := { r.placeFault with inService := none, revised := false, prior := none }
  match r.arrayState with
  | .faulted => r
  | _ => { r with arrayState := .mixed, faultReason := reason }

/-- The fault reason that a FAILED_MIXED ending gives a MOVING station (R48). -/
def Reason.mixedReason : Reason → Option FaultReason
  | .stuck => some .stuck
  | .breach => some .breach
  | .drift => some .drift
  | _ => none

/-- The arrival of a manual move that leaves a contactor the snapshot lists at the other position (R101).
FAULT, placed at acceptance, is placed again (R47; log entry 30). -/
def StationRecord.brokenByMove (r : StationRecord) : StationRecord :=
  let r := { r.placeFault with inService := none, revised := false }
  match r.arrayState with
  | .inPattern => { r with arrayState := .mixed, faultReason := none }
  | .moving => { r with prior := some (.mixed, none) }
  | .unset | .mixed | .faulted => r

/-- Evaluate the revised flag of a station (R38). -/
def State.evalRevised (st : Station) (s : State) : State :=
  let flag := s.revisedNow st
  s.updStation st fun r => { r with revised := flag }

/-! ### Supervision (R129) -/

/-- Whether supervision applies to a station. -/
def State.supervisionApplies (s : State) (st : Station) : Bool :=
  let r := s.station st
  r.arrayState = .inPattern && r.permit &&
  (match r.inService with
   | some v => !v.snap.pattern.windows.isEmpty
   | none => false) &&
  !((s.unit st).phase = .settling || (s.unit st).phase = .verifying) &&
  (s.monitor.failures.get st).isNone

/-- The cells of a station when supervision begins or ends: run counts 0; the window towers WATCHED with
the silence limit when it begins, every tower NOT_WATCHED when it ends (R129). -/
def State.resetCells (st : Station) (begins : Bool) (s : State) : State :=
  let until_ := s.now + 1000 * s.tables.site.silenceLimit
  let towers : List (Fin 8) :=
    match (s.station st).inService with
    | some v => v.snap.pattern.windows.map (·.tower)
    | none => []
  { s with monitor := { s.monitor with
      cells := s.monitor.cells.upd st fun v => Vector.ofFn fun t =>
        { v[t] with
          run := 0
          silence := if begins && towers.contains t then .watched until_ else .notWatched } } }

/-- Re-evaluate supervision of one station (R129). -/
def State.supervise (st : Station) (s : State) : State :=
  let applies := s.supervisionApplies st
  if applies = s.monitor.supervised.get st then s
  else
    let s := s.resetCells st applies
    { s with monitor := { s.monitor with supervised := s.monitor.supervised.set st applies } }

/-- Supervision is re-evaluated in every event that changes one of its terms: at the end of the event, for
both stations (log entry 11). -/
def State.superviseBoth (s : State) : State := (s.supervise .A).supervise .B

end Sys2Proof.Machine
end

