-- ==== Sys2Proof/Machine/Arbiter.lean ====
section
/-! DEFINITION. The Coil Drive Arbiter's queue and grants (R86 to R91). -/

namespace Sys2Proof.Machine

def State.updArbiter (f : Arbiter → Arbiter) (s : State) : State := { s with arbiter := f s.arbiter }

/-- Insert an entry behind every entry of equal or higher priority (R86). -/
def insertEntry (e : QueueEntry) : List QueueEntry → List QueueEntry
  | [] => [e]
  | q :: rest => if q.priority.rank < e.priority.rank then e :: q :: rest else q :: insertEntry e rest

def PulseOwner.claim : PulseOwner → Claim
  | .tu st => .tu st
  | .manual => .manual

/-- An entry joins the queue with the next arrival number (R86). -/
def State.enqueue (c : Fin 48) (target : Position) (owner : PulseOwner) (priority : Priority)
    (second : Bool) (s : State) : State :=
  s.updArbiter fun a => { a with
    queue := insertEntry { contactor := c, target := target, owner := owner, priority := priority,
                           arrival := a.nextArrival, second := second } a.queue
    nextArrival := a.nextArrival + 1 }

/-- A submission (R88): taken when the contactor's claim is the owner's and no pulse of it is queued or in
progress; refused, and without effect, otherwise. -/
def State.submit (c : Fin 48) (target : Position) (owner : PulseOwner) (priority : Priority)
    (s : State) : State :=
  if (s.row c).claim = owner.claim ∧ s.inMotion c = false then s.enqueue c target owner priority false
  else s

/-- Take a contactor's entry out of the queue. -/
def State.dequeue (c : Fin 48) (s : State) : State :=
  s.updArbiter fun a => { a with queue := a.queue.filter fun q => q.contactor ≠ c }

/-- Take a contactor's pulse out of the set in progress; its hot mark goes with it (R98). -/
def State.finishPulse (c : Fin 48) (s : State) : State :=
  (s.updArbiter fun a => { a with pulses := a.pulses.filter fun p => p.entry.contactor ≠ c }).updRow c
    fun r => { r with hotMark := StationSet.empty }

/-- The path of the entry's contactor is safe (R89). -/
def State.entrySafe (s : State) (q : QueueEntry) : Bool :=
  match (s.row q.contactor).path with
  | some p => s.pathSafe p
  | none => false

/-- The grant of one entry (R91): commanded position, grant time, travel timer, drive, hot mark. -/
def State.grantEntry (q : QueueEntry) (s : State) : State :=
  let pulse : Pulse :=
    { entry := q, granted := s.now, driveEnd := some (s.now + s.tables.site.coilPulse),
      travelEnd := s.now + s.tables.site.travelLimit }
  let s := (s.dequeue q.contactor).updArbiter fun a => { a with pulses := a.pulses ++ [pulse] }
  let s := s.updRow q.contactor fun r =>
    { r with commanded := some q.target, hotMark := StationSet.empty }
  match q.owner with
  | .tu st => s.updUnit st fun u => { u with drove := true }
  | .manual => s

/-- Walk the queue from its head, granting each entry whose path is safe while a place is free (R89). A
grant leaves every path's carrier and permit as they are, so one walk grants what repeated searches
from the head would. -/
def grantWalk : List QueueEntry → State → State
  | [], s => s
  | q :: rest, s =>
    if s.arbiter.pulses.length < s.tables.site.concurrency ∧ s.entrySafe q = true then
      grantWalk rest (s.grantEntry q)
    else grantWalk rest s

/-- The grant attempt of an event (R90; log entry 10). -/
def State.attemptGrants (s : State) : State := grantWalk s.arbiter.queue s

end Sys2Proof.Machine
end

