-- ==== Sys2Proof/Machine/Transition.lean ====
section
/-! DEFINITION. The transition engine: claims and releases (R15, R16), starting and claiming (R60 to
R66), muting and driving (R68 to R74), RESTORE (R76 to R79), endings (R82), closing (R116 to R118), the
pending slot (R52 to R54) and the follow-ups of an event. -/

namespace Sys2Proof.Machine

/-! ### Claims (R15, R16) -/

/-- Release a requester's claims on contactors (R16): those with a pulse queued or in progress are
recorded, the others become none, and a claim that became none is reported. -/
def Ev.releaseClaims (who : Claim) (cs : List (Fin 48)) (e : Ev) : Ev :=
  let mine (c : Fin 48) : Bool := cs.contains c && (e.s.row c).claim = who
  let freed := contactorSet fun c => mine c && !e.s.inMotion c
  let later := contactorSet fun c => mine c && e.s.inMotion c
  let e := e.on (State.updRows fun c r =>
    if freed.contains c then { r with claim := .none, releaseDue := false }
    else if later.contains c then { r with releaseDue := true }
    else r)
  if freed.isEmpty then e else e.push .releaseReport

/-- Release every claim a requester holds. -/
def Ev.releaseAll (who : Claim) (e : Ev) : Ev := e.releaseClaims who allContactors

/-- Carry out a recorded release, in the event that finishes or withdraws the contactor's pulse (R16): a claim lasts
while a pulse of its contactor does (R15). -/
def Ev.carryRelease (c : Fin 48) (e : Ev) : Ev :=
  if (e.s.row c).releaseDue && !e.s.inMotion c then
    (e.on (State.updRow c fun r => { r with claim := .none, releaseDue := false })).push .releaseReport
  else e

/-- A claim request (R15): granted whole when every named contactor is unclaimed, otherwise without
effect. -/
def State.requestClaims (who : Claim) (cs : List (Fin 48)) (s : State) : Option State :=
  if cs.all fun c => (s.row c).claim = .none then
    some (s.updRows fun c r => if cs.contains c then { r with claim := who } else r)
  else none

/-! ### Outcomes and endings (R55, R82, R134) -/

/-- The target, source and priority of the transition in flight, as an outcome reports them. -/
def TransitionRecord.request (u : TransitionRecord) : Option Request :=
  match u.target, u.priority, u.source with
  | some t, some p, some src => some { slot := t.slot, priority := p, source := src }
  | _, _, _ => none

/-- The flag of an outcome (R55). -/
def outcomeDetail (st : Station) (slot : Fin 32) (outcome : Outcome) (why : Option WhyEnded) : Detail :=
  match outcome with
  | .completedVerified | .completedUnverified => .transitionDone st slot outcome
  | .refused | .failedNoMove | .failedMixed | .verifyFailed => .transitionFailed st slot outcome why

/-- Record a station's last outcome and raise its flag (R55). -/
def State.recordOutcome (st : Station) (r : Request) (outcome : Outcome) (why : Option WhyEnded)
    (s : State) : State :=
  (s.updStation st fun x => { x with
      lastOutcome := some { outcome := outcome, why := why, slot := r.slot, source := r.source,
                            priority := r.priority } }).raise
    (outcomeDetail st r.slot outcome why)

/-- The station's side of an ending (R48). -/
def State.stationEnding (st : Station) (outcome : Outcome) (why : Option WhyEnded) (s : State) : State :=
  match outcome with
  | .failedNoMove => s.updStation st StationRecord.failedNoMove
  | .failedMixed => s.updStation st (StationRecord.failedMixed (why.bind fun w => w.reason.mixedReason))
  | .completedVerified | .completedUnverified | .refused | .verifyFailed => s

/-- The fault reason of a failure's kind (R132, R134). -/
def FailureKind.reason : FailureKind → FaultReason
  | .verify => .verify
  | .monitor => .monitor

/-- A protective transition that ends without RESTORE hands a fault to the station and closes the open
failure (R134). -/
def State.failureEnding (st : Station) (outcome : Outcome) (s : State) : State :=
  match s.monitor.failures.get st, outcome with
  | some f, .refused | some f, .failedNoMove | some f, .failedMixed =>
    if f.running then (s.handFault st f.kind.reason).setFailure st none else s
  | _, _ => s

/-- The ending event of a transition (R82), for the request it carried out: TRANSITION claims, contactor
claims, the station and its outcome, the open failure, IDLE; then the hand-off of the pending request. -/
def Ev.endTransition (st : Station) (r : Option Request) (outcome : Outcome) (why : Option WhyEnded)
    (e : Ev) : Ev :=
  let muted := (e.s.unit st).muted
  let e := (e.on (State.removeTransition st muted)).releaseAll (.tu st)
  let e := e.on (State.stationEnding st outcome why)
  let e := match r with
    | some r => e.on (State.recordOutcome st r outcome why)
    | none => e
  let e := e.on (State.failureEnding st outcome)
  (e.on (State.updUnit st fun _ => TransitionRecord.idle)).push (.handOff st)

/-- End the transition in flight. -/
def Ev.finish (st : Station) (outcome : Outcome) (why : Option WhyEnded) (e : Ev) : Ev :=
  e.endTransition st (e.s.unit st).request outcome why

/-! ### RESTORE (R76 to R79) -/

/-- Steps 1 to 5 of R77 on the station: power step, snapshot, IN_PATTERN, START-UP and FAULT removed. -/
def StationRecord.putInService (t : Snapshot) (protective : Bool) (r : StationRecord) : StationRecord :=
  { r with
    powerStep := t.pattern.powerStep
    inService := some { snap := t, byProtection := protective,
                        verified := if t.pattern.windows.isEmpty then .notMonitored else .no }
    arrayState := .inPattern
    faultReason := none
    prior := none
    claims := { r.claims with startUp := false, fault := false } }

/-- The transition record from RESTORE: SETTLING with the settle timer; it mutes, claims and drives nothing
any more (R77, R80, R112; log entry 14). -/
def TransitionRecord.settle (until_ : Nat) (u : TransitionRecord) : TransitionRecord :=
  { u with phase := .settling, timer := some until_, muted := StationSet.empty, stage := none,
           outstanding := [], heldBy := none, breach := none, deferred := none, waiting := false }

/-- RESTORE (R77). -/
def Ev.restore (st : Station) (t : Snapshot) (e : Ev) : Ev :=
  let u := e.s.unit st
  let e := e.on (State.updStation st
    (StationRecord.putInService t (u.priority = some .protective)))
  let e := e.on (State.evalRevised st)
  let e := e.on (State.removeTransition st u.muted)
  let e := e.on (State.setFailure st none)
  let e := e.releaseAll (.tu st)
  let e :=
    if u.moved.isEmpty then e
    else (e.on (State.updStation st fun r => { r with saved := some (t.slot, t.version) })).requestSave
  e.on fun s => s.updUnit st (TransitionRecord.settle (s.now + 1000 * t.pattern.settle))

/-- The RESTORE check (R76), then RESTORE or the ending with reason DRIFT. -/
def Ev.takeRestore (st : Station) (e : Ev) : Ev :=
  let u := e.s.unit st
  match u.target with
  | none => e
  | some t =>
    let astray := t.pattern.listed.find? fun c =>
      match t.pattern.lists c with
      | some p => !e.s.standsAt c p
      | none => false
    match astray with
    | some c =>
      e.finish st (if u.moved.isEmpty then .failedNoMove else .failedMixed) (some ⟨.drift, some c⟩)
    | none => e.restore st t

/-! ### Driving (R71 to R74, R106) -/

/-- A unit places its TRANSITION claim on stations (R43); where that withdraws a permit that was asserted, grants
are attempted at once (R90; log entry 10). -/
def State.muteStations (st : Station) (set : StationSet) (s : State) : State :=
  let t := s.placeTransition st set
  if set.members.any fun w => (s.station w).permit then t.attemptGrants else t

/-- The contactors of a stage that are not sensed at their listed positions (R71 step 1). -/
def State.stageSubset (s : State) (stage : List Setting) : List (Fin 48) :=
  contactorSet fun c =>
    match stage.find? (fun x => x.contactor = c) with
    | some x => !s.standsAt c x.position
    | none => false

/-- The union of the paths of contactors (R66). -/
def State.pathsOf (s : State) (cs : List (Fin 48)) : StationSet :=
  cs.foldl (fun set c =>
    match (s.row c).path with
    | some p => StationSet.union set p.stations
    | none => set) StationSet.empty

/-- A breach starts at a unit (R110): if the breach field is no, the breach timer starts with the
carrier-off wait. -/
def State.startBreach (st : Station) (s : State) : State :=
  let until_ := s.now + 1000 * s.tables.site.carrierOffWait
  s.updUnit st fun u => { u with breach := some (u.breach.getD until_) }

/-- The extension of a stage start (R72): contactors that stood at their positions at the grant join the
moving set; a station newly in the muted set is muted, and is a breach when its carrier is on. -/
def State.extendSets (st : Station) (subset : List (Fin 48)) (s : State) : State :=
  let u := s.unit st
  let added := subset.filter fun c => !u.moving.contains c
  let paths := s.pathsOf added
  let fresh : StationSet := ⟨paths.a && !u.muted.a, paths.b && !u.muted.b⟩
  let s := s.updUnit st fun u => { u with
    moving := contactorSet fun c => u.moving.contains c || added.contains c
    muted := StationSet.union u.muted fresh }
  let s := s.muteStations st fresh
  if s.allCarriersOff fresh then s else s.startBreach st

/-- An armed hold point matches a stage start (R106). -/
def HoldPoint.matches (h : HoldPoint) (st : Station) (stage : Nat) (subset : List (Fin 48)) : Bool :=
  h.armed &&
  match h.kind with
  | .contactor c => subset.contains c
  | .stage t n => t = st && n = stage

/-- The lowest-numbered armed point that matches (R106). -/
def State.holdFor (s : State) (st : Station) (stage : Nat) (subset : List (Fin 48)) : Option (Fin 4) :=
  (List.finRange 4).find? fun i =>
    match s.holds[i] with
    | some h => h.matches st stage subset
    | none => false

/-- Submit contactors of the target, in ascending number (R73); the first submission makes the station MOVING
(R47). A grant attempt follows at once, before anything else of the event is submitted (R88, R90; log entry 10):
the entries of one submission stand together, so one attempt grants what one after each of them would. -/
def State.submitSubset (st : Station) (subset : List (Fin 48)) (s : State) : State :=
  let u := s.unit st
  let s := if u.submitted then s else s.updStation st StationRecord.startMoving
  let s := s.updUnit st fun u => { u with outstanding := subset, deferred := none, submitted := true }
  let s := subset.foldl (fun s c =>
    match u.target, u.priority with
    | some t, some p =>
      match t.pattern.lists c with
      | some pos => s.submit c pos (.tu st) p
      | none => s
    | _, _ => s) s
  s.attemptGrants

/-- Stop at a hold point (R106): HELD, the hold timer, HOLD_REACHED. -/
def State.enterHeld (st : Station) (point : Fin 4) (stage : Nat) (s : State) : State :=
  let until_ := s.now + 60000 * s.tables.site.holdLimit
  let slot := (s.unit st).target.map (·.slot)
  (s.updUnit st fun u => { u with phase := .held, heldBy := some point, timer := some until_ }).raise
    (.holdReached st point stage slot)

/-- Stage starts from stage number `idx` on (R71): an empty subset passes the stage over; after the last
stage comes RESTORE. `tested`: the hold test of this first stage is omitted, as at CONTINUE (R108). A
submission is deferred while the breach field is yes (R112). -/
def driveFrom (st : Station) : Bool → Nat → List (List Setting) → Ev → Ev
  | _, _, [], e => e.takeRestore st
  | tested, idx, stage :: rest, e =>
    let e := e.on (State.updUnit st fun u => { u with stage := some idx })
    let subset := e.s.stageSubset stage
    if subset.isEmpty then driveFrom st false (idx + 1) rest e
    else
      let e := e.on (State.extendSets st subset)
      let hold :=
        if tested || (e.s.unit st).priority = some .protective then none
        else e.s.holdFor st idx subset
      match hold with
      | some point => e.on (State.enterHeld st point idx)
      | none =>
        if (e.s.unit st).breach.isSome then
          e.on (State.updUnit st fun u => { u with deferred := some subset, outstanding := [] })
        else e.on (State.submitSubset st subset)

/-- The stages of a unit's target. -/
def State.stagesOf (s : State) (st : Station) : List (List Setting) :=
  match (s.unit st).target with
  | some t => t.pattern.stages
  | none => []

/-- Enter DRIVING from MUTING: the timer stops and stage 1 starts (R68, R71). -/
def Ev.enterDriving (st : Station) (e : Ev) : Ev :=
  let e := e.on (State.updUnit st fun u => { u with phase := .driving, timer := none })
  driveFrom st false 1 (e.s.stagesOf st) e

/-- The current stage ends and the next one starts (R74). -/
def Ev.stageEnd (st : Station) (e : Ev) : Ev :=
  let done := (e.s.unit st).stage.getD 0
  driveFrom st false (done + 1) ((e.s.stagesOf st).drop done) e

/-- A transition leaves HELD to go on: the held stage is taken up again without a hold test (R108). -/
def Ev.resume (st : Station) (e : Ev) : Ev :=
  let e := e.on (State.updUnit st fun u => { u with phase := .driving, heldBy := none, timer := none })
  let stage := (e.s.unit st).stage.getD 1
  driveFrom st true stage ((e.s.stagesOf st).drop (stage - 1)) e

/-! ### Starting and claiming (R60 to R68) -/

/-- The compatibility check (R62): the first listed shared contactor that the other station's snapshot
lists at another position. -/
def State.incompatible (s : State) (st : Station) (p : Pattern) : Option (Fin 48) :=
  p.listed.find? fun c =>
    match (s.row c).path, s.inServiceLists st.other c with
    | some path, some pos => path.has st.other && decide (p.lists c ≠ some pos)
    | _, _ => false

/-- The contactor-fault check (R63): the first configured contactor of the station's path that is STUCK or
CONFLICT, or DRIFTED and not listed. R63 asks the target snapshot, as R7 and sections 1.6, 2.2 and 4.7 do, where the
table of R37 names the in-service one: the model follows R63 (log entry 35). -/
def State.barredContactor (s : State) (st : Station) (p : Pattern) : Option (Fin 48) :=
  allContactors.find? fun c =>
    match (s.row c).path with
    | some path =>
      path.has st &&
      match (s.row c).condition with
      | .stuck | .conflict => true
      | .drifted => (p.lists c).isNone
      | .normal | .slow => false
    | none => false

/-- Both checks in order, with the reason of a refusal (R64). -/
def State.claimingRefusal (s : State) (st : Station) (p : Pattern) : Option WhyEnded :=
  match s.incompatible st p with
  | some c => some ⟨.incompatible, some c⟩
  | none =>
    match s.barredContactor st p with
    | some c => some ⟨.contactorFault, some c⟩
    | none => none

/-- Entering MUTING (R68): the TRANSITION claims, the carrier-off wait, and DRIVING at once when every
muted station's carrier is off. -/
def Ev.enterMuting (st : Station) (e : Ev) : Ev :=
  let set := (e.s.unit st).muted
  let until_ := e.s.now + 1000 * e.s.tables.site.carrierOffWait
  let e := e.on (State.muteStations st set)
  let e := e.on (State.updUnit st fun u => { u with phase := .muting, timer := some until_ })
  if e.s.allCarriersOff set then e.enterDriving st else e

/-- The grant event (R64, R66): the checks again, the moving and muted sets, then MUTING, or RESTORE for a
confirming transition. -/
def Ev.claimGranted (st : Station) (p : Pattern) (e : Ev) : Ev :=
  match e.s.claimingRefusal st p with
  | some why => e.finish st .refused (some why)
  | none =>
    let moving := p.listed.filter fun c =>
      match p.lists c with
      | some pos => !e.s.standsAt c pos
      | none => false
    let muted := e.s.pathsOf moving
    let e := e.on (State.updUnit st fun u =>
      { u with waiting := false, moving := moving, muted := muted })
    if moving.isEmpty then e.takeRestore st else e.enterMuting st

/-- The checks and one claim request, at the start and at a retry (R64). -/
def Ev.tryClaim (st : Station) (e : Ev) : Ev :=
  match (e.s.unit st).target with
  | none => e
  | some t =>
    match e.s.claimingRefusal st t.pattern with
    | some why => e.finish st .refused (some why)
    | none =>
      match e.s.requestClaims (.tu st) t.pattern.listed with
      | some s => ({ e with s := s }).claimGranted st t.pattern
      | none => e.on (State.updUnit st fun u => { u with waiting := true })

/-- The start re-check (R60). -/
def State.startRefusal (s : State) (st : Station) (slot : Fin 32) : Option Reason :=
  if !s.activeFor slot st then some .vacant
  else if s.retiring slot then some .retiring
  else none

/-- A waiting open failure becomes RUNNING when its PROTECTIVE request is handed to the unit (R133). -/
def State.failureRuns (st : Station) (r : Request) (s : State) : State :=
  match s.monitor.failures.get st with
  | some f => if r.priority = .protective then s.setFailure st (some { f with running := true }) else s
  | none => s

/-- A transition starts (R60): the request is handed to the unit, re-checked, and either ends REFUSED or
takes its target snapshot, enters CLAIMING and makes its first claim request. -/
def Ev.start (st : Station) (r : Request) (e : Ev) : Ev :=
  let e := e.on (State.failureRuns st r)
  match e.s.startRefusal st r.slot with
  | some reason => e.endTransition st (some r) .refused (some ⟨reason, none⟩)
  | none =>
    match e.s.pattern r.slot with
    | none => e
    | some v =>
      let e := e.on (State.updUnit st fun _ =>
        { TransitionRecord.idle with
          phase := .claiming
          target := some { slot := r.slot, version := v.version, pattern := v.pattern }
          priority := some r.priority
          source := some r.source })
      e.tryClaim st

/-! ### The pending slot (R52 to R54) -/

inductive Intake
  | started
  | absorbed
  | pending
  | refused
deriving DecidableEq, Repr

/-- Drop a request with REQUEST_DROPPED (R52, R53). -/
def State.dropRequest (st : Station) (r : Request) (s : State) : State :=
  s.raise (.requestDropped st r)

/-- A SCHEDULED or PROTECTIVE request is fit to wait only for a slot ACTIVE for the station and not
retiring (R53). -/
def State.fitToWait (s : State) (st : Station) (r : Request) : Bool :=
  r.priority = .commanded || (s.activeFor r.slot st && !s.retiring r.slot)

/-- Place a request in the pending slot, if it is fit to wait (R53). -/
def State.placeRequest (st : Station) (r : Request) (s : State) : State × Intake :=
  if s.fitToWait st r then (s.updStation st fun x => { x with request := some r }, .pending)
  else (s.dropRequest st r, .refused)

/-- Take a transition request for a station (R52): the first row that applies decides. A host request of
lower priority than the pending one is refused; others are dropped. -/
def Ev.intake (st : Station) (r : Request) (e : Ev) : Ev × Intake :=
  let u := e.s.unit st
  match (e.s.station st).request with
  | none =>
    if u.phase = .idle ∧ e.s.siteCommitRunning = false then (e.start st r, .started)
    else if u.phase ≠ .idle ∧ u.target.map (·.slot) = some r.slot ∧ r.priority ≠ .protective then
      (e, .absorbed)
    else
      let (s, x) := e.s.placeRequest st r
      ({ e with s := s }, x)
  | some held =>
    if held.priority.rank ≤ r.priority.rank then
      if e.s.fitToWait st r then
        let (s, x) := e.s.placeRequest st r
        ({ e with s := s.dropRequest st held }, x)
      else (e.on (State.dropRequest st r), .refused)
    else if r.source = .host then (e, .refused)
    else (e.on (State.dropRequest st r), .refused)

/-- Hand the pending request to an IDLE unit, unless a site-record commit is running (R54). -/
def Ev.handOff (st : Station) (e : Ev) : Ev :=
  match (e.s.station st).request with
  | none => e
  | some r =>
    if (e.s.unit st).phase = .idle ∧ e.s.siteCommitRunning = false then
      (e.on (State.updStation st fun x => { x with request := none })).start st r
    else e

/-! ### Closing (R116 to R118) -/

/-- The closing event (R118). -/
def Ev.closingEvent (st : Station) (cause : Cause) (e : Ev) : Ev :=
  let u := e.s.unit st
  match cause with
  | .stuck => e.finish st .failedMixed (some ⟨.stuck, none⟩)
  | .aborted =>
    e.finish st (if u.drove || !u.moved.isEmpty then .failedMixed else .failedNoMove)
      (some ⟨.aborted, none⟩)
  | .breach =>
    e.finish st (if u.drove || !u.moved.isEmpty then .failedMixed else .failedNoMove)
      (some ⟨.breach, none⟩)

/-- Withdraw a unit's pulses (R97). The unit releases each contactor as its pulse ends (R67, R117): the queued
entries leave with their recorded releases carried out, and the pulses in progress run on with theirs recorded
(R16; log entry 13). -/
def Ev.withdraw (st : Station) (e : Ev) : Ev :=
  let queued := contactorSet fun c => e.s.arbiter.queue.any fun q =>
    q.contactor = c && q.owner = .tu st
  let e := e.releaseClaims (.tu st) queued
  let e := e.on (State.updArbiter fun a => { a with queue := a.queue.filter fun q => q.owner ≠ .tu st })
  let e := queued.foldl (fun e c => e.carryRelease c) e
  e.releaseClaims (.tu st) (e.s.pulsesOf (.tu st))

/-- A transition starts closing (R116). -/
def Ev.startClosing (st : Station) (cause : Cause) (e : Ev) : Ev :=
  let e := e.on (State.updUnit st fun u =>
    { u with closing := some cause, timer := none, breach := none, heldBy := none, deferred := none })
  let e := e.withdraw st
  let left := e.s.pulsesOf (.tu st)
  let e := e.on (State.updUnit st fun u => { u with outstanding := left })
  if left.isEmpty then e.closingEvent st cause else e

/-- A contactor leaves a unit's outstanding set. -/
def State.leaveOutstanding (st : Station) (c : Fin 48) (s : State) : State :=
  s.updUnit st fun u => { u with outstanding := u.outstanding.filter fun x => x ≠ c }

/-- What an emptied outstanding set means: the closing event of a closing unit (R117), else the end of the
stage (R74). -/
def Ev.outstandingEmptied (st : Station) (e : Ev) : Ev :=
  match (e.s.unit st).closing with
  | some cause => e.closingEvent st cause
  | none => e.stageEnd st

/-- A unit takes a confirmation or an arrival of one of its contactors (R74, R92, R117). -/
def Ev.unitArrived (st : Station) (c : Fin 48) (e : Ev) : Ev :=
  if (e.s.unit st).outstanding.contains c then
    let e := e.on (State.leaveOutstanding st c)
    let e := e.on (State.updUnit st fun u => { u with moved := u.moved ++ [c] })
    if (e.s.unit st).outstanding.isEmpty then e.outstandingEmptied st else e
  else e

/-- A closing unit takes the finishing of a pulse without an arrival (R117). -/
def Ev.unitLost (st : Station) (c : Fin 48) (e : Ev) : Ev :=
  match (e.s.unit st).closing with
  | none => e
  | some cause =>
    if (e.s.unit st).outstanding.contains c then
      let e := e.on (State.leaveOutstanding st c)
      if (e.s.unit st).outstanding.isEmpty then e.closingEvent st cause else e
    else e

/-- A unit takes a STUCK result for one of its pulses (R116, R117). -/
def Ev.unitStuck (st : Station) (c : Fin 48) (e : Ev) : Ev :=
  let u := e.s.unit st
  if u.closing.isSome then e.unitLost st c
  else
    match u.phase with
    | .driving | .held => e.startClosing st .stuck
    | _ => e

/-- A unit takes a conflict report for a claimed contactor (R116); a closing unit keeps its cause. -/
def Ev.unitConflict (st : Station) (e : Ev) : Ev :=
  let u := e.s.unit st
  if u.closing.isSome then e
  else
    match u.phase with
    | .muting | .driving | .held => e.startClosing st .stuck
    | _ => e

/-! ### Manual moves (R101) -/

/-- The manual move ends: its claim is released and it is no longer in flight. -/
def Ev.endManual (e : Ev) : Ev := (e.on fun s => { s with manual := none }).releaseAll .manual

/-- The stations of a manual move's path whose snapshot lists the contactor at the position other than the
one now sensed lose their pattern in service (R101). -/
def State.manualArrival (c : Fin 48) (s : State) : State :=
  match (s.row c).path with
  | none => s
  | some p =>
    p.stations.members.foldl (fun s st =>
      match s.inServiceLists st c with
      | some pos =>
        if s.standsAt c pos then s else s.updStation st StationRecord.brokenByMove
      | none => s) s

/-- The owner of a pulse takes an arrival. -/
def Ev.ownerArrived (owner : PulseOwner) (c : Fin 48) (e : Ev) : Ev :=
  match owner with
  | .tu st => e.unitArrived st c
  | .manual => (e.on (State.manualArrival c)).endManual

/-- The owner of a pulse takes a STUCK result. -/
def Ev.ownerStuck (owner : PulseOwner) (c : Fin 48) (e : Ev) : Ev :=
  match owner with
  | .tu st => e.unitStuck st c
  | .manual => e.endManual

/-! ### The follow-ups of an event -/

/-- Take one follow-up. A release report makes the waiting units retry, in a free order where both wait
(R65; log entry 8); what it causes comes before what was due behind it (log entry 12). -/
def Ev.take (x : FollowUp) (e : Ev) : Ev :=
  match x with
  | .releaseReport =>
    let waits (st : Station) : Bool := (e.s.unit st).waiting
    let (order, s) := e.s.raceOrder (waits .A && waits .B)
    { s := s, due := ((order.filter waits).map FollowUp.retry) ++ e.due }
  | .retry st => if (e.s.unit st).waiting then e.tryClaim st else e
  | .handOff st => e.handOff st
  | .handOffs =>
    let pends (st : Station) : Bool := (e.s.station st).request.isSome
    let (order, s) := e.s.raceOrder (pends .A && pends .B)
    { s := s, due := (order.map FollowUp.handOff) ++ e.due }

/-- Take the follow-ups of an event until none is due, with a grant attempt before each and after the last: what
the steps before freed, submitted or made safe is judged before what comes behind it (R90; log entry 10). A
follow-up that causes others ends a wait or empties a pending slot, and each station has at most one of either and
can come by one more wait in the event, so 64 are more than any event makes. -/
def runDue : Nat → Ev → State
  | 0, e => e.s.attemptGrants
  | n + 1, e =>
    let s := e.s.attemptGrants
    match e.due with
    | [] => s
    | x :: rest => runDue n (Ev.take x { s := s, due := rest })

/-- The end of an event that may move the array, a row's event within a scan included: its follow-ups with
their grant attempts (R90) and supervision (R129). -/
def Ev.settle (e : Ev) : State := (runDue 64 e).superviseBoth

/-- The end of a command that may move the array: the event settles and the output pins follow. -/
def Ev.conclude (e : Ev) : Host.Outcome State Fault Refusal := .next e.settle.drivePins

/-- The end of a command that leaves transitions, pulses and supervision alone. -/
def State.conclude (s : State) : Host.Outcome State Fault Refusal := .next s.drivePins

end Sys2Proof.Machine
end

