-- ==== Sys2Proof/Machine/Contactors.lean ====
section
/-! DEFINITION. The contactor table and coil motion: scanning and accepted changes (R8 to R14), conditions
and counts (R17 to R20), arrival, expiry and STUCK results (R92 to R98), carrier changes (R41, R42, R69,
R110 to R113) and configuration (R7). -/

namespace Sys2Proof.Machine

/-! ### Counts and conditions -/

/-- Examine a row for maintenance (R20). -/
def State.examineMaintenance (c : Fin 48) (s : State) : State :=
  let r := s.row c
  if s.tables.site.maintenance ≠ 0 ∧ s.tables.site.maintenance ≤ r.operations ∧ r.maintenance = false then
    (s.updRow c fun r => { r with maintenance := true }).raise (.maintenanceDue c r.operations)
  else s

/-- Examine every row (R20), in ascending number: the order in which the rows raise MAINTENANCE_DUE is the model's
(log entry 36). -/
def State.examineAll (s : State) : State :=
  allContactors.foldl (fun s c => s.examineMaintenance c) s

/-- The condition after a move confirmed at its target (R17). -/
def Condition.confirmed (slow : Bool) : Condition → Condition
  | .stuck => .stuck
  | .conflict => .conflict
  | .normal | .slow | .drifted => if slow then .slow else .normal

/-- The condition after drift (R17). -/
def Condition.drift : Condition → Condition
  | .stuck => .stuck
  | .conflict => .conflict
  | .normal | .slow | .drifted => .drifted

/-- The condition after the second expiry of the travel limit (R17). -/
def Condition.expired : Condition → Condition
  | .conflict => .conflict
  | .normal | .slow | .stuck | .drifted => .stuck

/-- Rounded up to a whole 10 ms (R93). -/
def roundUp10 (t : Nat) : Nat := (t + 9) / 10 * 10

/-- The row at a confirmed move (R93 step 3, R19): travel, condition, operations and hot moves. -/
def Row.confirmMove (travel slowThreshold : Nat) (hot : Bool) (r : Row) : Row :=
  { r with
    lastTravel := some travel
    condition := r.condition.confirmed (decide (slowThreshold < travel))
    operations := min 4294967295 (r.operations + 1)
    hotMoves := if hot then min 65535 (r.hotMoves + 1) else r.hotMoves }

/-- The stations whose carrier makes a move hot: the row's hot mark, and those of its path with carrier on
now (R98). -/
def State.hotStations (s : State) (c : Fin 48) : StationSet :=
  match (s.row c).path with
  | some p => StationSet.union (s.row c).hotMark (s.carriersOn p)
  | none => (s.row c).hotMark

/-! ### Arrival (R92, R93) -/

/-- Confirmation of a pulse in progress at its target (R93); the grant attempt of its step 6 ends the
event. -/
def Ev.confirm (c : Fin 48) (p : Pulse) (e : Ev) : Ev :=
  let hot := e.s.hotStations c
  let travel := roundUp10 (e.s.now - p.granted)
  let slow := e.s.tables.site.slowThreshold
  let e := e.on (State.finishPulse c)
  let e := e.on (State.updRow c (Row.confirmMove travel slow (!StationSet.isEmpty hot)))
  let e := if StationSet.isEmpty hot then e else e.on (State.raise (.hotMove c hot))
  let e := e.on (State.examineMaintenance c)
  (e.ownerArrived p.entry.owner c).carryRelease c

/-- A queued contactor is found at its target (R92). -/
def Ev.foundAtTarget (c : Fin 48) (q : QueueEntry) (e : Ev) : Ev :=
  ((e.on (State.dequeue c)).ownerArrived q.owner c).carryRelease c

/-- An explained change to AT_1, AT_2 or BETWEEN, handed to the arbiter (R92). A try 2 granted in the expiry event
itself is in progress when the change comes, and the change confirms it by R92's first row, where R94's last
sentence speaks of a queued try 2 (log entry 43). -/
def Ev.explainedChange (c : Fin 48) (new : Sensed) (e : Ev) : Ev :=
  match e.s.pulseOf c with
  | some p => if new = p.entry.target.sensed then e.confirm c p else e
  | none =>
    match e.s.queuedOf c with
    | some q => if new = q.target.sensed then e.foundAtTarget c q else e
    | none => e

/-! ### Drift and conflict (R11, R12, R96) -/

/-- Drift of a configured contactor (R11). -/
def State.drift (c : Fin 48) (p : Path) (s : State) : State :=
  let relies (st : Station) : Bool :=
    p.has st && ((s.inServiceLists st c).isSome || (s.station st).permit)
  let hit : StationSet := ⟨relies .A, relies .B⟩
  let s := (s.updRow c fun r => { r with condition := r.condition.drift }).raise
    (.contactorFault c .drifted)
  hit.members.foldl (fun s st => s.handFault st .drift) s

/-- The STUCK result of a change to CONFLICT for a pulse queued or in progress (R96). -/
def Ev.conflictResult (c : Fin 48) (e : Ev) : Ev :=
  match e.s.pulseOf c with
  | some p => ((e.on (State.finishPulse c)).ownerStuck p.entry.owner c).carryRelease c
  | none =>
    match e.s.queuedOf c with
    | some q => ((e.on (State.dequeue c)).ownerStuck q.owner c).carryRelease c
    | none => e

/-- The conflict report to the claim owner (R12). -/
def Ev.conflictReport (c : Fin 48) (e : Ev) : Ev :=
  match (e.s.row c).claim with
  | .none => e
  | .tu st => e.unitConflict st
  | .manual => e.endManual

/-- A change of a configured contactor to CONFLICT (R12). -/
def Ev.conflict (c : Fin 48) (p : Path) (e : Ev) : Ev :=
  let e := e.on (State.updRow c fun r => { r with condition := .conflict })
  let e := e.on (State.raise (.contactorFault c .conflict))
  let e := e.on (State.faultPath p .conflict)
  (e.conflictResult c).conflictReport c

/-- An accepted change of a row's sensed value (R9 to R13). -/
def Ev.acceptChange (c : Fin 48) (new : Sensed) (e : Ev) : Ev :=
  let e := e.on (State.updRow c fun r => { r with sensed := new, candidate := none })
  match (e.s.row c).path with
  | none => e
  | some p =>
    if new = .conflict then e.conflict c p
    else if (e.s.row c).condition = .conflict then e
    else if e.s.inMotion c then e.explainedChange c new
    else e.on (State.drift c p)

/-! ### The feedback scan (R8, R9) -/

/-- The raw reading of a pair of contacts (R8). -/
def rawReading : Bool × Bool → Sensed
  | (true, false) => .at1
  | (false, true) => .at2
  | (false, false) => .between
  | (true, true) => .conflict

/-- A place's raw reading in a scan; a place not listed reads both contacts open (R8). -/
def placeReading (contacts : List (Bool × Bool)) (c : Fin 48) : Sensed :=
  rawReading (contacts.getD c.val (false, false))

/-- One row's raw reading at a scan after the reset scan (R9): accepted when it equals the candidate. -/
def State.judgeRow (contacts : List (Bool × Bool)) (s : State) (c : Fin 48) : State :=
  let raw := placeReading contacts c
  let r := s.row c
  if raw = r.sensed then s.updRow c fun r => { r with candidate := none }
  else if r.candidate = some raw then (s.event.acceptChange c raw).settle
  else s.updRow c fun r => { r with candidate := some raw }

/-- The order in which one scan's rows are taken: those named first, then the others ascending (log
entry 9). -/
def scanOrder (first : List (Fin 48)) : List (Fin 48) :=
  first.eraseDups ++ allContactors.filter fun c => !first.contains c

/-- The reset scan: every raw reading becomes sensed at once (R8). -/
def State.resetScan (contacts : List (Bool × Bool)) (s : State) : State :=
  s.updRows fun c r => { r with sensed := placeReading contacts c, candidate := none }

def execFeedbackScan (dt : Nat) (contacts : List (Bool × Bool)) (order : List (Fin 48)) (s : State) :
    Host.Outcome State Fault Refusal :=
  let s := s.elapseTo dt s.scan.due
  let first := !s.scan.resetDone
  let s := { s with scan := { resetDone := true, due := s.now + 10 } }
  if first then (s.resetScan contacts).conclude
  else ((scanOrder order).foldl (fun s c => s.judgeRow contacts c) s).conclude

/-! ### Timers of a pulse (R91, R94, R95) -/

def State.updPulse (c : Fin 48) (f : Pulse → Pulse) (s : State) : State :=
  s.updArbiter fun a => { a with pulses := a.pulses.map fun p => if p.entry.contactor = c then f p else p }

def execCoilDriveEnd (dt : Nat) (c : Fin 48) (s : State) : Host.Outcome State Fault Refusal :=
  match (s.pulseOf c).bind (·.driveEnd) with
  | none => (s.elapse dt).conclude
  | some t => ((s.elapseTo dt t).updPulse c fun p => { p with driveEnd := none }).conclude

/-- A try 1 pulse's travel limit runs out (R94): requeued as try 2; for a closing unit it is finished and
reported as expired (R97). -/
def Ev.firstExpiry (c : Fin 48) (p : Pulse) (e : Ev) : Ev :=
  let withdrawing : Option Station :=
    match p.entry.owner with
    | .tu st => if (e.s.unit st).closing.isSome then some st else none
    | .manual => none
  let e := e.on (State.finishPulse c)
  match withdrawing with
  | some st => (e.unitLost st c).carryRelease c
  | none => e.on (State.enqueue c p.entry.target p.entry.owner p.entry.priority true)

def execTravelLimitRetry (dt : Nat) (c : Fin 48) (s : State) : Host.Outcome State Fault Refusal :=
  match s.pulseOf c with
  | some p =>
    if p.entry.second then (s.elapse dt).conclude
    else ((s.elapseTo dt p.travelEnd).event.firstExpiry c p).conclude
  | none => (s.elapse dt).conclude

/-- A try 2 pulse's travel limit runs out (R95): STUCK, the path's stations faulted, the owner told. -/
def Ev.secondExpiry (c : Fin 48) (p : Pulse) (e : Ev) : Ev :=
  let e := e.on (State.finishPulse c)
  let e := e.on (State.updRow c fun r => { r with condition := r.condition.expired })
  let e := e.on (State.raise (.contactorFault c .stuck))
  let e := match (e.s.row c).path with
    | some path => e.on (State.faultPath path .stuck)
    | none => e
  (e.ownerStuck p.entry.owner c).carryRelease c

def execTravelLimitStuck (dt : Nat) (c : Fin 48) (s : State) : Host.Outcome State Fault Refusal :=
  match s.pulseOf c with
  | some p =>
    if p.entry.second then ((s.elapseTo dt p.travelEnd).event.secondExpiry c p).conclude
    else (s.elapse dt).conclude
  | none => (s.elapse dt).conclude

/-! ### Carrier changes (R41, R42) -/

/-- Whether a pulse is in progress for a contactor whose path includes the station. -/
def State.pulseInPath (s : State) (st : Station) : Bool :=
  s.arbiter.pulses.any fun p =>
    match (s.row p.entry.contactor).path with
    | some path => path.has st
    | none => false

/-- The phases in which a unit drives contactors (R110). -/
def Phase.drives : Phase → Bool
  | .driving | .held => true
  | .idle | .claiming | .muting | .settling | .verifying => false

/-- CARRIER_BREACH at a change of carrier to on (R110). -/
def State.raiseBreach (st : Station) (s : State) : State :=
  let mutes (u : Station) : Bool := (s.unit u).muted.get st
  let drives (u : Station) : Bool := (s.unit u).phase.drives && mutes u
  if drives .A || drives .B || s.pulseInPath st then
    s.raise (.carrierBreach st ⟨mutes .A, mutes .B⟩ (s.pulseInPath st))
  else s

/-- A unit takes carrier on at a muted station as a breach (R110). -/
def State.breachOf (st u : Station) (s : State) : State :=
  if (s.unit u).phase.drives ∧ (s.unit u).closing.isNone ∧ (s.unit u).muted.get st then s.startBreach u
  else s

/-- Every pulse in progress in the station's path is marked hot (R98). -/
def State.markHot (st : Station) (s : State) : State :=
  let hot := contactorSet fun c =>
    (s.pulseOf c).isSome &&
    match (s.row c).path with
    | some path => path.has st
    | none => false
  s.updRows fun c r => if hot.contains c then { r with hotMark := r.hotMark.set st true } else r

/-- Carrier comes on at a station (R98, R110, R111). -/
def State.carrierOn (st : Station) (s : State) : State :=
  let pulse := s.pulseInPath st
  let s := s.raiseBreach st
  let s := (s.breachOf st .A).breachOf st .B
  let s := if pulse then s.handFault st .breach else s
  s.markHot st

/-- A deferred submission at the end of a breach wait (R113): the contactors not yet at their positions are
submitted, or the stage ends. -/
def Ev.submitDeferred (u : Station) (subset : List (Fin 48)) (e : Ev) : Ev :=
  let left := subset.filter fun c =>
    match (e.s.unit u).target.bind fun t => t.pattern.lists c with
    | some pos => !e.s.standsAt c pos
    | none => true
  let e := e.on (State.updUnit u fun x => { x with deferred := none })
  if left.isEmpty then e.stageEnd u else e.on (State.submitSubset u left)

/-- Whether a unit has something to do at carrier off of a station: it waits in MUTING or in a breach wait
for that station. -/
def State.awaitsCarrier (s : State) (st u : Station) : Bool :=
  let x := s.unit u
  x.muted.get st && x.closing.isNone &&
  (decide (x.phase = .muting) || (x.phase.drives && x.breach.isSome))

/-- A unit takes carrier off at a muted station (R69, R113). -/
def Ev.carrierOffAt (st u : Station) (e : Ev) : Ev :=
  let x := e.s.unit u
  if e.s.awaitsCarrier st u && e.s.allCarriersOff x.muted then
    if x.phase = .muting then e.enterDriving u
    else
      let e := e.on (State.updUnit u fun x => { x with breach := none })
      match x.phase, x.deferred with
      | .driving, some subset => e.submitDeferred u subset
      | _, _ => e
  else e

/-- Carrier goes off at a station: both units take it, in a free order where both await it (log entry
8). -/
def Ev.carrierOff (st : Station) (e : Ev) : Ev :=
  let (order, s) := e.s.raceOrder (e.s.awaitsCarrier st .A && e.s.awaitsCarrier st .B)
  order.foldl (fun e u => e.carrierOffAt st u) { e with s := s }

def execCarrierChangeAccepted (dt : Nat) (st : Station) (on : Bool) (s : State) :
    Host.Outcome State Fault Refusal :=
  let s := s.elapse dt
  if (s.station st).carrier = on then s.conclude
  else
    let s := s.updStation st fun r => { r with carrier := on }
    if on then (s.carrierOn st).event.conclude else (s.event.carrierOff st).conclude

/-! ### Configuration taking effect (R7) -/

/-- A row under a contactor's configuration (R7). -/
def Row.configure (path : Option Path) (r : Row) : Row :=
  match r.path, path with
  | none, some p =>
    { r with
      path := some p
      commanded := match r.sensed with
        | .at1 => some .one
        | .at2 => some .two
        | .between | .conflict => none
      condition := match r.sensed with
        | .conflict => .conflict
        | .between => .drifted
        | .at1 | .at2 => .normal }
  | some _, some p => { r with path := some p }
  | some _, none => { r with path := none, commanded := none, condition := .normal }
  | none, none => r

/-- A configuration takes effect: every row is brought into line, and a row that becomes configured in
CONFLICT or DRIFTED raises CONTACTOR_FAULT (R7). That the rows raise it in ascending number is the model's order
(log entry 36). -/
def State.applyConfig (config : Vector (Option Path) 48) (s : State) : State :=
  let fresh := contactorSet fun c => (s.row c).path.isNone && config[c].isSome
  let s := s.updRows fun c r => r.configure config[c]
  fresh.foldl (fun s c =>
    match (s.row c).condition with
    | .conflict => s.raise (.contactorFault c .conflict)
    | .drifted => s.raise (.contactorFault c .drifted)
    | .normal | .slow | .stuck => s) s

end Sys2Proof.Machine
end

