-- ==== Sys2Proof/Machine/Units.lean ====
section
/-! DEFINITION. The timers of a transition unit: carrier-off wait, hold limit, breach wait, settle and
verify timers (R70, R109, R113, R80, R127). Each expiry is taken at its timer's end or later, and is
without effect when that timer does not run (log entries 1 and 2). -/

namespace Sys2Proof.Machine

/-- The end of the unit's phase timer while it is in the phase named and not closing. -/
def State.timerIn (s : State) (st : Station) (phase : Phase) : Option Nat :=
  let u := s.unit st
  if u.phase = phase ∧ u.closing.isNone then u.timer else none

def execCarrierOffWaitExpiry (dt : Nat) (st : Station) (s : State) : Host.Outcome State Fault Refusal :=
  match s.timerIn st .muting with
  | none => (s.elapse dt).conclude
  | some t =>
    ((s.elapseTo dt t).event.finish st .failedNoMove (some ⟨.carrierNotOff, none⟩)).conclude

def execHoldLimitExpiry (dt : Nat) (st : Station) (s : State) : Host.Outcome State Fault Refusal :=
  match s.timerIn st .held with
  | none => (s.elapse dt).conclude
  | some t =>
    let u := s.unit st
    (((s.elapseTo dt t).raise (.holdExpired st u.heldBy u.stage)).event.resume st).conclude

def execBreachWaitExpiry (dt : Nat) (st : Station) (s : State) : Host.Outcome State Fault Refusal :=
  let u := s.unit st
  match u.breach with
  | none => (s.elapse dt).conclude
  | some t =>
    if u.phase.drives ∧ u.closing.isNone then
      ((s.elapseTo dt t).event.startClosing st .breach).conclude
    else (s.elapse dt).conclude

/-- Entering VERIFYING (R123): every window tower UNDECIDED, in the order of the target's windows (log entry 40),
and the verify timer of the silence limit. -/
def State.enterVerifying (st : Station) (windows : List Window) (s : State) : State :=
  let until_ := s.now + 1000 * s.tables.site.silenceLimit
  s.updUnit st fun u =>
    { u with phase := .verifying, timer := some until_,
             marks := windows.map fun w => (w.tower, Mark.undecided) }

def execSettleExpiry (dt : Nat) (st : Station) (s : State) : Host.Outcome State Fault Refusal :=
  match s.timerIn st .settling with
  | none => (s.elapse dt).conclude
  | some t =>
    let s := s.elapseTo dt t
    let windows := match (s.unit st).target with
      | some x => x.pattern.windows
      | none => []
    if windows.isEmpty then
      (s.event.finish st .completedUnverified (some ⟨.noWindows, none⟩)).conclude
    else (s.enterVerifying st windows).event.conclude

/-- The towers still UNDECIDED. -/
def TransitionRecord.undecided (u : TransitionRecord) : List (Fin 8) :=
  (u.marks.filter fun m => m.2 = .undecided).map (·.1)

def execVerifyTimeout (dt : Nat) (st : Station) (s : State) : Host.Outcome State Fault Refusal :=
  match s.timerIn st .verifying, (s.unit st).target with
  | some t, some x =>
    let s := (s.elapseTo dt t).raise (.verifyTimeout st x.slot x.version (s.unit st).undecided)
    (s.event.finish st .completedUnverified (some ⟨.verifyTimeout, none⟩)).conclude
  | _, _ => (s.elapse dt).conclude

end Sys2Proof.Machine
end

