-- ==== Sys2Proof/Machine/MonitorLine.lean ====
section
/-! DEFINITION. The Monitor Supervisor: the monitor line (R119, R120, R204), the window test (R26),
verification (R124 to R126), supervision readings (R130), silence (R131) and failure handling (R132). -/

namespace Sys2Proof.Machine

def State.updMonitor (f : Monitor → Monitor) (s : State) : State := { s with monitor := f s.monitor }

/-! ### The window test -/

/-- The wrapped difference of a phase from a centre (R26). -/
def wrapPhase (phase centre : Int) : Int :=
  let d := phase - centre
  if 1800 < d then d - 3600 else if d < -1800 then d + 3600 else d

/-- A reading is in tolerance of a window (R26). -/
def Window.inTolerance (w : Window) (ratio : Nat) (phase : Int) : Bool :=
  let d := wrapPhase phase w.centre
  decide (w.ratioLow ≤ ratio ∧ ratio ≤ w.ratioHigh ∧ -(w.halfWidth : Int) ≤ d ∧ d ≤ w.halfWidth)

/-- The window of a pattern on a tower. -/
def Pattern.windowOn (p : Pattern) (tower : Fin 8) : Option Window :=
  p.windows.find? fun w => w.tower = tower

/-! ### Frames -/

/-- A reading: the content of one accepted frame (R121). -/
structure Reading where
  station : Station
  tower : Fin 8
  ratio : Nat
  phase : Int
  valid : Bool
deriving DecidableEq, Repr

/-- The tests of R120 on a complete frame by the layout of R204; `none` where one fails. -/
def frameReading (f : MonitorFrame) : Option Reading :=
  let bytes := [f.station, f.tower, f.ratioHi, f.ratioLo, f.phaseHi, f.phaseLo, f.flags, f.check]
  let ratio := beNat [f.ratioHi, f.ratioLo]
  let phase := beInt16 f.phaseHi f.phaseLo
  if byteSum bytes % 256 ≠ 0 then none
  else
    match stationOf f.station.toNat with
    | none => none
    | some st =>
      if f.tower.toNat = 0 then none
      else
        match finOf 8 (f.tower.toNat - 1) with
        | none => none
        | some tower =>
          if 9999 < ratio then none
          else if phase < -1800 ∨ 1800 < phase then none
          else some { station := st, tower := tower, ratio := ratio, phase := phase,
                      valid := f.flags.getLsbD 0 }

/-- A discard adds one to the discard count, which stays at 65,535 (R119, R120). -/
def State.countDiscard (s : State) : State :=
  s.updMonitor fun m => { m with discards := min 65535 (m.discards + 1) }

/-- Steps 1 and 2 of an acceptance (R120): the cell is written, and a watched or silent cell's timer is
started again (R131). -/
def Cell.accept (now limit : Nat) (r : Reading) (c : Cell) : Cell :=
  { c with
    ratio := some r.ratio
    phase := some r.phase
    valid := r.valid
    arrival := some now
    silence := match c.silence with
      | .notWatched => .notWatched
      | .watched _ | .silent => .watched (now + limit) }

/-! ### Failures (R132) -/

/-- The fallback slot a failure of the station may use (R132). -/
def State.usableFallback (s : State) (st : Station) : Option (InService × Fin 32) :=
  let r := s.station st
  match r.inService with
  | none => none
  | some v =>
    match v.snap.pattern.fallback with
    | none => none
    | some f =>
      if r.arrayState = .inPattern ∧ v.byProtection = false ∧ s.activeFor f st ∧ s.retiring f = false then
        some (v, f)
      else none

/-- Handle a failure (R132): a PROTECTIVE request for the usable fallback with an open failure recorded
before it, or a fault. -/
def Ev.handleFailure (st : Station) (kind : FailureKind) (e : Ev) : Ev :=
  match e.s.usableFallback st with
  | some (v, f) =>
    let e := e.on (State.setFailure st (some
      { kind := kind, slot := v.snap.slot, version := v.snap.version, fallback := f, running := false }))
    (e.intake st { slot := f, priority := .protective, source := .fallback v.snap.slot }).1
  | none => e.on (State.handFault st kind.reason)

/-! ### Verification (R124 to R126) -/

/-- Mark a tower. -/
def TransitionRecord.mark (tower : Fin 8) (m : Mark) (u : TransitionRecord) : TransitionRecord :=
  { u with marks := u.marks.map fun x => if x.1 = tower then (tower, m) else x }

/-- The towers marked OUT with the reading that marked each. -/
def TransitionRecord.outs (u : TransitionRecord) : List (Fin 8 × Nat × Int) :=
  u.marks.filterMap fun m =>
    match m.2 with
    | .out ratio phase => some (m.1, ratio, phase)
    | .undecided | .inTolerance => none

/-- COMPLETED_VERIFIED (R125): the snapshot is marked verified if it is the target's. -/
def Ev.completeVerified (st : Station) (t : Snapshot) (e : Ev) : Ev :=
  let e := e.on (State.updStation st fun r => { r with
    inService := r.inService.map fun v =>
      if v.snap.slot = t.slot ∧ v.snap.version = t.version then { v with verified := .yes } else v })
  e.finish st .completedVerified none

/-- VERIFY_FAILED (R126): the flag, the failure handling, the ending. -/
def Ev.verifyFailed (st : Station) (t : Snapshot) (outs : List (Fin 8 × Nat × Int)) (e : Ev) : Ev :=
  let e := e.on (State.raise (.monitorFail st t.slot t.version .verify outs (e.s.usableFallback st).isSome))
  (e.handleFailure st .verify).finish st .verifyFailed none

/-- A reading offered to verification (R124). -/
def Ev.verifyReading (r : Reading) (e : Ev) : Ev :=
  let st := r.station
  match (e.s.unit st).target with
  | none => e
  | some t =>
    match t.pattern.windowOn r.tower with
    | none => e
    | some w =>
      if r.valid && (e.s.unit st).undecided.contains r.tower then
        let mark := if w.inTolerance r.ratio r.phase then Mark.inTolerance else .out r.ratio r.phase
        let e := e.on (State.updUnit st (TransitionRecord.mark r.tower mark))
        let u := e.s.unit st
        if !u.undecided.isEmpty then e
        else if u.outs.isEmpty then e.completeVerified st t
        else e.verifyFailed st t u.outs
      else e

/-! ### Supervision readings (R130) -/

/-- A reading offered to supervision (R130): the run count, and a failure when it reaches the tolerance
run. -/
def Ev.superviseReading (r : Reading) (e : Ev) : Ev :=
  let st := r.station
  match (e.s.station st).inService with
  | none => e
  | some v =>
    match v.snap.pattern.windowOn r.tower with
    | none => e
    | some w =>
      if r.valid = false then e
      else if w.inTolerance r.ratio r.phase then
        e.on (State.updCell st r.tower fun c => { c with run := 0 })
      else
        let run := (e.s.cell st r.tower).run + 1
        let e := e.on (State.updCell st r.tower fun c => { c with run := run })
        if e.s.tables.site.toleranceRun ≤ run then
          let e := e.on (State.raise (.monitorFail st v.snap.slot v.snap.version .monitor
            [(r.tower, r.ratio, r.phase)] (e.s.usableFallback st).isSome))
          e.handleFailure st .monitor
        else e

/-- A complete frame (R120): discarded, or accepted and offered to verification or supervision. -/
def State.takeFrame (f : MonitorFrame) (s : State) : Ev :=
  match frameReading f with
  | none => s.countDiscard.event
  | some r =>
    let supervised := s.monitor.supervised.get r.station
    let s := s.updCell r.station r.tower
      (Cell.accept s.now (1000 * s.tables.site.silenceLimit) r)
    if (s.unit r.station).phase = .verifying then s.event.verifyReading r
    else if supervised then s.event.superviseReading r
    else s.event

/-- The receiver is SEEKING again. -/
def State.seekMonitor (s : State) : State := s.updMonitor fun m => { m with rx := none }

def execMonitorFrame (dt : Nat) (frame : MonitorFrame) (s : State) : Host.Outcome State Fault Refusal :=
  ((s.elapse dt).seekMonitor.takeFrame frame).conclude

def execMonitorFrameGap (dt : Nat) (s : State) : Host.Outcome State Fault Refusal :=
  match s.monitor.rx with
  | none => (s.elapse dt).conclude
  | some _ => (s.elapseTo dt (s.monitor.rxAt + 20)).seekMonitor.countDiscard.conclude

/-- The frame of eight bytes. -/
def monitorFrameOf : List Byte → Option MonitorFrame
  | [st, tower, r1, r0, p1, p0, flags, check] => some ⟨st, tower, r1, r0, p1, p0, flags, check⟩
  | _ => none

/-- A byte or character error in SEEKING (R119). -/
def State.monitorSeek (byte : Option Byte) (s : State) : State :=
  if byte = some 0xC3 then s.updMonitor fun m => { m with rx := some [], rxAt := s.now } else s

def execMonitorByteReceived (dt : Nat) (byte : Option Byte) (s : State) :
    Host.Outcome State Fault Refusal :=
  let s := s.elapse dt
  match s.monitor.rx with
  | none => (s.monitorSeek byte).conclude
  | some bytes =>
    if s.monitor.rxAt + 20 < s.now then (s.seekMonitor.countDiscard.monitorSeek byte).conclude
    else
      match byte with
      | none => s.seekMonitor.countDiscard.conclude
      | some b =>
        match monitorFrameOf (bytes ++ [b]) with
        | some f => (s.seekMonitor.takeFrame f).conclude
        | none => (s.updMonitor fun m => { m with rx := some (bytes ++ [b]), rxAt := s.now }).conclude

/-! ### Silence (R131) -/

def execSilenceExpiry (dt : Nat) (st : Station) (tower : Fin 8) (s : State) :
    Host.Outcome State Fault Refusal :=
  match (s.cell st tower).silence with
  | .watched t =>
    let slot := (s.station st).inService.map fun v => v.snap.slot
    (((s.elapseTo dt t).updCell st tower fun c => { c with silence := .silent }).raise
      (.monitorSilent st tower slot)).conclude
  | .notWatched | .silent => (s.elapse dt).conclude

end Sys2Proof.Machine
end

