-- ==== Sys2Proof/Machine/Clock.lean ====
section
/-! DEFINITION. The Site Clock and Schedule Unit: the calendar (R137, R142), second boundaries and the time
source (R139 to R141), the minute scan (R150, R151), resolution (R153 to R155) and the requests SET_CLOCK,
SUSPEND_SCHEDULE and RESUME_SCHEDULE. -/

namespace Sys2Proof.Machine

def State.updClock (f : Clock → Clock) (s : State) : State := { s with clock := f s.clock }

/-! ### The calendar (R137, R142) -/

/-- A year is a leap year when its number divides by 4 (R137). -/
def yearLength (year : Nat) : Nat := if year % 4 = 0 then 366 else 365

/-- The time after a boundary (R142); `none` is NOT_SET, at the end of year 2099. -/
def SiteTime.next (t : SiteTime) : Option SiteTime :=
  if t.second < 59 then some { t with second := t.second + 1 }
  else if t.minute < 1439 then some { t with minute := t.minute + 1, second := 0 }
  else if t.date.day < yearLength t.date.year then
    some { date := { t.date with day := t.date.day + 1 }, minute := 0, second := 0 }
  else if t.date.year < 2099 then
    some { date := { year := t.date.year + 1, day := 1 }, minute := 0, second := 0 }
  else none

/-- The day number of the day before (R142). -/
def Date.dayBefore (d : Date) : Nat := if 1 < d.day then d.day - 1 else yearLength (d.year - 1)

/-- The time after `n` boundaries. -/
def runTime : Nat → Option SiteTime → Option SiteTime
  | 0, t => t
  | n + 1, t => runTime n (t.bind SiteTime.next)

/-- The clock record run on through a loss of main power, to `now` (R137, R138; log entry 29). -/
def Clock.runOn (now : Nat) (c : Clock) : Clock :=
  let n := (now - c.reference) / 1000
  { c with
    time := runTime n c.time
    reference := c.reference + 1000 * n
    boundary := if n = 0 then c.boundary else c.reference + 1000 * n }

/-! ### Choosing entries (R146, R150, R153) -/

/-- The entry's date range holds on a day (R146). -/
def Entry.holdsOn (e : Entry) (day : Nat) : Bool :=
  if e.firstDay ≤ e.lastDay then decide (e.firstDay ≤ day ∧ day ≤ e.lastDay)
  else decide (e.firstDay ≤ day ∨ day ≤ e.lastDay)

/-- The ENABLED entries of a station that pass a test, in ascending number. -/
def State.entriesWhere (s : State) (st : Station) (test : Fin 64 → Entry → Bool) : List (Fin 64) :=
  (List.finRange 64).filter fun i =>
    match s.entry i with
    | some e => e.enabled && e.station = st && test i e
    | none => false

/-- One entry comes before another: later minute, then higher precedence (R150, R153). -/
def State.outranks (s : State) (i j : Fin 64) : Bool :=
  match s.entry i, s.entry j with
  | some x, some y =>
    decide (y.minute < x.minute ∨ (x.minute = y.minute ∧ y.precedence < x.precedence))
  | _, _ => false

/-- The first of entries given in ascending number: of equal ones the lowest number stays. -/
def State.firstEntry (s : State) (l : List (Fin 64)) : Option (Fin 64) :=
  l.foldl (fun best i =>
    match best with
    | none => some i
    | some b => if s.outranks i b then some i else some b) none

/-- The last-fired date of the entries becomes `today` (R149). An entry keeps one date: after a SET_CLOCK to another
date, a mark there and a return to the first, R150's test finds the first date unmarked and the entry fires on it
again (log entry 48). -/
def State.markFired (l : List (Fin 64)) (today : Date) (s : State) : State :=
  { s with lastFired := Vector.ofFn fun i => if l.contains i then some today else s.lastFired[i] }

def State.setGoverning (st : Station) (g : Option (Fin 64)) (s : State) : State :=
  s.updStation st fun r => { r with governing := g }

/-- The test of R151: the station already stands in the target. -/
def State.standsInTarget (s : State) (st : Station) (slot : Fin 32) : Bool :=
  s.inServiceAtWorking st slot && decide ((s.unit st).phase = .idle)

/-- The request for a governing entry's target, unless the station stands in it (R151, R154). -/
def State.scheduleRequest (s : State) (st : Station) (i : Fin 64) : Option Request :=
  match s.entry i with
  | some e =>
    if s.standsInTarget st e.target then none
    else some { slot := e.target, priority := .scheduled, source := .schedule i }
  | none => none

/-- Hand a station's request to the Station Controller, if there is one. -/
def Ev.intakeIf (want : Both (Option Request)) (e : Ev) (st : Station) : Ev :=
  match want.get st with
  | some r => (e.intake st r).1
  | none => e

/-- Hand over the requests of both stations, in a free order where both make one (log entry 8). -/
def Ev.intakeBoth (want : Both (Option Request)) (e : Ev) : Ev :=
  let (order, s) := e.s.raceOrder (want.a.isSome && want.b.isSome)
  order.foldl (fun e st => e.intakeIf want st) { e with s := s }

/-! ### The minute scan (R150, R151) -/

/-- The candidates of a station's scan (R150). -/
def State.candidates (s : State) (st : Station) (t : SiteTime) : List (Fin 64) :=
  s.entriesWhere st fun i e =>
    e.holdsOn t.date.day && decide (e.minute = t.minute) && decide (s.lastFired[i] ≠ some t.date)

/-- A station's scan up to its request: marks, winner, governing entry. -/
def State.scanStation (st : Station) (t : SiteTime) (s : State) : State × Option Request :=
  if (s.station st).suspended then (s, none)
  else
    let l := s.candidates st t
    match s.firstEntry l with
    | none => (s, none)
    | some i => ((s.markFired l t.date).setGoverning st (some i), s.scheduleRequest st i)

/-- The minute scan of both stations (R150). -/
def Ev.minuteScan (t : SiteTime) (e : Ev) : Ev :=
  if e.s.started then
    let (s, a) := e.s.scanStation .A t
    let (s, b) := s.scanStation .B t
    Ev.intakeBoth ⟨a, b⟩ { e with s := s }
  else e

/-! ### Boundaries and the time source (R139 to R141) -/

/-- A second boundary: it becomes the timing reference; a VALID clock advances, and a minute boundary makes
the minute scan (R139, R142). -/
def Ev.boundary (e : Ev) : Ev :=
  let e := e.on fun s => s.updClock fun c => { c with reference := s.now, boundary := s.now }
  match e.s.clock.time with
  | none => e
  | some t =>
    let e := e.on (State.updClock fun c => { c with time := t.next })
    match t.next with
    | none => e.on (State.raise (.clockSource .rangeEnd none))
    | some t => if t.second = 0 then e.minuteScan t else e

/-- A pulse under TREF (R139): a boundary 500 ms or more after the last one, else only a realignment. -/
def Ev.pulseUnderTref (e : Ev) : Ev :=
  if e.s.clock.boundary + 500 ≤ e.s.now then e.boundary
  else e.on fun s => s.updClock fun c => { c with reference := s.now }

/-- The qualifying run after a pulse at `now` (R141). -/
def Clock.judgePulse (now : Nat) (c : Clock) : Nat :=
  if c.run = 0 then 1
  else
    match c.lastPulse with
    | some p => if p + 900 ≤ now ∧ now ≤ p + 1100 then c.run + 1 else 1
    | none => 1

/-- A TREF pulse (R139, R140, R141). -/
def Ev.trefPulse (e : Ev) : Ev :=
  let c := e.s.clock
  let run := c.judgePulse e.s.now
  let e := e.on fun s => s.updClock fun c => { c with lastPulse := some s.now }
  match c.source with
  | .tref => e.pulseUnderTref
  | .internal =>
    if run < 3 then e.on (State.updClock fun c => { c with run := run })
    else (e.on (State.updClock fun c => { c with source := .tref, run := 0 })).pulseUnderTref

def execTrefPulse (dt : Nat) (s : State) : Host.Outcome State Fault Refusal :=
  (s.elapse dt).event.trefPulse.conclude

/-- 1100 ms pass from the timing reference under TREF without a pulse (R139). -/
def execTrefMissingPulse (dt : Nat) (s : State) : Host.Outcome State Fault Refusal :=
  match s.clock.source with
  | .tref => (s.elapseTo dt (s.clock.reference + 1100)).event.boundary.conclude
  | .internal => (s.elapse dt).conclude

/-- 3 s pass from the last pulse under TREF (R140). -/
def execTrefLost (dt : Nat) (s : State) : Host.Outcome State Fault Refusal :=
  match s.clock.source, s.clock.lastPulse with
  | .tref, some p =>
    let s := (s.elapseTo dt (p + 3000)).updClock fun c => { c with source := .internal, run := 0 }
    (s.raise (.clockSource .lost s.clock.time)).conclude
  | _, _ => (s.elapse dt).conclude

/-- 1000 ms pass from the timing reference under INTERNAL (R140). -/
def execInternalBoundary (dt : Nat) (s : State) : Host.Outcome State Fault Refusal :=
  match s.clock.source with
  | .internal => (s.elapseTo dt (s.clock.reference + 1000)).event.boundary.conclude
  | .tref => (s.elapse dt).conclude

/-- 4 s after the end of a power-on reset (R138). -/
def execClockSourceAbsentAtStart (dt : Nat) (s : State) : Host.Outcome State Fault Refusal :=
  match s.clock.absentDue with
  | none => (s.elapse dt).conclude
  | some t =>
    let s := (s.elapseTo dt t).updClock fun c => { c with absentDue := none }
    match s.clock.source with
    | .internal => (s.raise (.clockSource .absentAtStart s.clock.time)).conclude
    | .tref => s.conclude

/-! ### Resolution (R153, R154) -/

/-- The entry that governs a station at a time (R153). -/
def State.governs (s : State) (st : Station) (t : SiteTime) : Option (Fin 64) :=
  match s.firstEntry (s.entriesWhere st fun _ e =>
      e.holdsOn t.date.day && decide (e.minute ≤ t.minute)) with
  | some i => some i
  | none => s.firstEntry (s.entriesWhere st fun _ e => e.holdsOn t.date.dayBefore)

/-- The entries that resolution marks (R154 step 3). -/
def State.passedToday (s : State) (st : Station) (t : SiteTime) : List (Fin 64) :=
  s.entriesWhere st fun _ e => e.holdsOn t.date.day && decide (e.minute ≤ t.minute)

/-- Resolution of a station: its governing entry and marks, and the request to make, which reads neither
(R154). -/
def State.resolve (st : Station) (t : SiteTime) (s : State) : State × Option Request :=
  let g := s.governs st t
  ((s.setGoverning st g).markFired (s.passedToday st t) t.date, g.bind (s.scheduleRequest st))

/-- Resolution of a station whose schedule is not suspended (R143). -/
def State.resolveIfActing (st : Station) (t : SiteTime) (s : State) : State × Option Request :=
  if (s.station st).suspended then (s, none) else s.resolve st t

/-! ### SET_CLOCK, SUSPEND_SCHEDULE and RESUME_SCHEDULE -/

/-- SET_CLOCK (R143). -/
def Ev.setClock (fields : List Byte) (e : Ev) : Ev × Reply :=
  let year := field16 fields 0
  let day := field16 fields 2
  let minute := field16 fields 4
  if year < 2000 ∨ 2099 < year then (e, Reply.fieldError 48)
  else if day < 1 ∨ yearLength year < day then (e, Reply.fieldError 49)
  else if 1439 < minute then (e, Reply.fieldError 50)
  else
    let t : SiteTime := { date := { year := year, day := day }, minute := minute, second := 0 }
    let s := e.s.updClock fun c =>
      { c with time := some t, boundary := e.s.now, reference := e.s.now }
    let (s, a) := s.resolveIfActing .A t
    let (s, b) := s.resolveIfActing .B t
    (Ev.intakeBoth ⟨a, b⟩ { e with s := s }, Reply.ok (timeBytes (some t)))

/-- SUSPEND_SCHEDULE (R156). -/
def State.suspendSchedule (fields : List Byte) (s : State) : State × Reply :=
  match stationOf (fieldAt fields 0) with
  | none => (s, Reply.fieldError 0)
  | some st => (s.updStation st fun r => { r with suspended := true }, Reply.ok [])

/-- RESUME_SCHEDULE (R157). -/
def Ev.resumeSchedule (fields : List Byte) (e : Ev) : Ev × Reply :=
  match stationOf (fieldAt fields 0) with
  | none => (e, Reply.fieldError 0)
  | some st =>
    if (e.s.station st).suspended then
      let s := e.s.updStation st fun r => { r with suspended := false }
      match s.clock.time with
      | none => ({ e with s := s }, Reply.ok [])
      | some t =>
        let (s, r) := s.resolve st t
        let e := { e with s := s }
        (match r with
         | some r => (e.intake st r).1
         | none => e, Reply.ok [])
    else (e, Reply.refuse .wrongState)

end Sys2Proof.Machine
end

