-- ==== Sys2Proof/Machine/Commits.lean ====
section
/-! DEFINITION. The running store job: segment writes, the marker write with commit completion (R174, R185)
and write faults (R186). -/

namespace Sys2Proof.Machine

/-! ### Commit completion (R174) -/

/-- The governing entry is kept only while it is ENABLED for the station (R152). -/
def State.keepGoverning (st : Station) (s : State) : State :=
  s.updStation st fun r => { r with
    governing := r.governing.filter fun i =>
      match s.entry i with
      | some e => e.enabled && decide (e.station = st)
      | none => false }

/-- Steps 1 to 5 of completion: tables, queue and set (R174). -/
def State.takeTables (run : CommitRun) (s : State) : State :=
  { s with tables := s.afterTables run.version, staging := [], commit := none }

/-- The Contactor Supervisor's part of a completion (R7, R20). -/
def State.takeSite (carriesSite thresholdChanged : Bool) (s : State) : State :=
  let s := if carriesSite then s.applyConfig s.tables.site.config else s
  if thresholdChanged then s.examineAll else s

/-- A commit completes with its marker's number (R174). -/
def Ev.completeCommit (number : Nat) (e : Ev) : Ev :=
  match e.s.commit with
  | none => e
  | some run =>
    let carriesSite := e.s.siteCommitRunning
    let before := e.s.tables.site.maintenance
    let e := e.on (State.takeTables run)
    let e := e.on (State.raise (.commitDone number run.carried.length))
    let e := e.on (State.takeSite carriesSite (e.s.tables.site.maintenance ≠ before))
    let e := e.on fun s => (s.evalRevised .A).evalRevised .B
    let e := e.on fun s => (s.keepGoverning .A).keepGoverning .B
    if carriesSite then e.push .handOffs else e

/-! ### The job's writes -/

/-- A segment write is read back complete and the next write starts (R181, R183). -/
def State.segmentDone (job : Job) (seg : Segment) (rest : List Segment) (s : State) : State :=
  let next : Job := { job with left := rest, step := .erase }
  ((s.finishWrite job seg).updStore fun x => { x with running := some next }).beginWrite next.writing

def execSegmentWriteDone (dt : Nat) (s : State) : Host.Outcome State Fault Refusal :=
  match s.store.running with
  | some job =>
    match job.left with
    | seg :: rest => ((s.elapse dt).segmentDone job seg rest).conclude
    | [] => (s.elapse dt).conclude
  | none => (s.elapse dt).conclude

/-- The store's part of a job's completion: the marker stands, the pairs turn, the status is recorded
(R185). -/
def State.markerDone (job : Job) (s : State) : State :=
  ((s.finishWrite job .mark).turnPairs job).setStatus job.kind (.completed job.number)

/-- A completed job as its kind's owner sees it (R185). -/
def Ev.jobCompleted (job : Job) (e : Ev) : Ev :=
  match job.kind with
  | .hostCommit => e.completeCommit job.number
  | .opsSave => e

/-- The front waiting job starts, if there is one (R183). -/
def Ev.nextJob (e : Ev) : Ev := startFront e.s.store.waiting e

def execMarkerWriteDone (dt : Nat) (s : State) : Host.Outcome State Fault Refusal :=
  match s.store.running with
  | some job =>
    match job.left with
    | [] => (((((s.elapse dt).markerDone job).event).jobCompleted job).nextJob).conclude
    | _ :: _ => (s.elapse dt).conclude
  | none => (s.elapse dt).conclude

/-- The store's part of a write fault: the flag, the status, the pairs' spares and staleness; the bank being written
stays as the fault left it (R186; log entry 20). -/
def State.faultWrite (job : Job) (step : WriteStep) (s : State) : State :=
  ((s.raise (.storeFault job.kind job.number job.writing step)).setStatus job.kind
    (.failed (some job.number))).judgePairs

/-- A write fault (R186). The steps of a write are read back in order, so a fault in a step before the one that
READ_STORE has shown cannot come: it changes only the time (R181; log entries 2, 19). -/
def execWriteFault (dt : Nat) (step : WriteStep) (s : State) : Host.Outcome State Fault Refusal :=
  match s.store.running with
  | some job =>
    if WriteStep.code job.step ≤ WriteStep.code step then
      (((((s.elapse dt).faultWrite job step).event).jobAbandoned job.kind).nextJob).conclude
    else (s.elapse dt).conclude
  | none => (s.elapse dt).conclude

end Sys2Proof.Machine
end

