-- ==== Sys2Proof/Machine/Startup.lean ====
section
/-! DEFINITION. Store start-up: the choice of the marker and the banks (R188, R189), the loading and
neutralization of the tables (R190, R191) and the event that ends it (R192, R155, R56). -/

namespace Sys2Proof.Machine

/-! ### The choice of banks (R188, R189) -/

/-- The bank of higher number among those a test admits. -/
def BankPair.choose (p : BankPair) (fit : Bank → Bool) : Option Bool :=
  match fit p.bank0, fit p.bank1 with
  | true, true => some (decide (p.bank0.number < p.bank1.number))
  | true, false => some false
  | false, true => some true
  | false, false => none

/-- The MARK pair at start-up: the valid bank of higher number is in force, and the next marker goes into the
other bank, or into bank 0 in a blank store (R188). -/
def BankPair.chooseMarker (p : BankPair) : BankPair :=
  let c := p.choose (Bank.valid .mark)
  { p with
    current := c
    spare := match c with
      | some b => !b
      | none => false
    stale := false }

/-- A pair other than MARK judged against C (R189): the current bank, then the spare and staleness. -/
def BankPair.judge (c : Nat) (seg : Segment) (p : BankPair) : BankPair :=
  BankPair.judgeSpare c seg
    { p with current := p.choose fun b => b.valid seg && decide (b.number ≤ c) }

/-- All eleven segments. -/
def allSegments : List Segment := tableSegments ++ [.mark]

/-- The largest commit number in the header of any valid bank (R182). -/
def State.largestNumber (s : State) : Nat :=
  allSegments.foldl (fun n seg =>
    [(s.pair seg).bank0, (s.pair seg).bank1].foldl (fun n b =>
      if b.valid seg then max n b.number else n) n) 0

/-- The banks chosen: MARK first, then every other pair (R188, R189). -/
def State.chooseBanks (s : State) : State :=
  let s := s.updPair .mark BankPair.chooseMarker
  let c := s.markerNumber
  let s := tableSegments.foldl (fun s seg => s.updPair seg (BankPair.judge c seg)) s
  s.updStore fun x => { x with highest := s.largestNumber, running := none, waiting := [] }

/-- The records in force of a segment; `none` where the segment reads empty (R189). -/
def State.inForce (s : State) (seg : Segment) : Records :=
  match (s.pair seg).current with
  | some b => ((s.pair seg).bank b).records
  | none => .none

/-! ### Loading (R190) -/

def Records.pattern (r : Records) (k : Nat) : Option Versioned :=
  match r with
  | .patterns l => l.getD k Option.none
  | _ => Option.none

def Records.entry (r : Records) (k : Nat) : Option Entry :=
  match r with
  | .entries l => l.getD k Option.none
  | _ => Option.none

/-- The tables as the segments in force read (R189, R190). -/
def State.loadTables (s : State) : Tables :=
  let site := s.inForce .site
  { patterns := Vector.ofFn fun i : Fin 32 => (s.inForce (slotSegment i)).pattern (i.val % 8)
    schedule := Vector.ofFn fun i : Fin 64 => (s.inForce (entrySegment i)).entry (i.val % 16)
    site := match site with
      | .site x _ => x
      | _ => Site.blank
    code := match site with
      | .site _ code => code
      | _ => none }

/-- The operations data in force: counts 0 and no saved values where OPS reads empty (R179). -/
def State.loadOps (s : State) : OpsData :=
  match s.inForce .ops with
  | .ops d => d
  | _ => { counts := [], saved := ⟨none, none⟩ }

/-! ### Neutralization (R191) -/

/-- A pattern that does not fit the loaded site record is withheld (pass 1). -/
def Tables.withholds (t : Tables) (slot : Fin 32) : Bool :=
  match t.patterns[slot] with
  | some v => !(v.pattern.fitsPaths t.site v.pattern.station && v.pattern.fitsTowers t.site)
  | none => false

def Tables.withhold (t : Tables) : Tables :=
  { t with patterns := Vector.ofFn fun i => if t.withholds i then none else t.patterns[i] }

/-- The fallback of a slot that pass 2 makes absent. -/
def Tables.brokenFallback (t : Tables) (slot : Fin 32) : Option (Fin 32) :=
  match t.patterns[slot] with
  | some v => v.pattern.fallback.filter fun f => f = slot || !t.activeFor f v.pattern.station
  | none => none

def Tables.dropFallbacks (t : Tables) : Tables :=
  { t with patterns := Vector.ofFn fun i =>
      if (t.brokenFallback i).isSome then
        t.patterns[i].map fun v => { v with pattern := { v.pattern with fallback := none } }
      else t.patterns[i] }

/-- An ENABLED entry whose target is not ACTIVE for its station is disabled (pass 3). -/
def Tables.disables (t : Tables) (i : Fin 64) : Bool :=
  match t.schedule[i] with
  | some e => e.enabled && !t.activeFor e.target e.station
  | none => false

def Tables.disable (t : Tables) : Tables :=
  { t with schedule := Vector.ofFn fun i =>
      if t.disables i then t.schedule[i].map fun e => { e with enabled := false }
      else t.schedule[i] }

/-- The three passes in order. -/
def Tables.neutralize (t : Tables) : Tables := t.withhold.dropFallbacks.disable

/-! ### The report (R192) -/

/-- A segment that reads empty although the marker lists it, or that is reverted (R189, R192). R189's table reports
every pair without a qualifying bank as damaged; its last paragraph and R192 only where the marker lists a non-zero
number for it, which the model follows (log entry 46). -/
def State.damage (s : State) (seg : Segment) : Option (Segment × Bool) :=
  match (s.pair seg).current with
  | none => if s.inForceNumber seg = 0 then none else some (seg, false)
  | some b =>
    if ((s.pair seg).bank b).number = s.inForceNumber seg then none else some (seg, true)

/-- A pair with a valid bank above C. -/
def State.rolledBack (s : State) (seg : Segment) : Bool :=
  (s.pair seg).bank0.above s.markerNumber seg || (s.pair seg).bank1.above s.markerNumber seg

/-- What start-up found, from the store with its banks chosen and the tables as loaded. -/
def State.report (s : State) (t : Tables) : StartupReport :=
  let t1 := t.withhold
  { number := s.markerNumber
    lastHost := s.lastHostCommit
    blank := s.markerBank.isNone
    rolledBack := tableSegments.filter fun seg => s.rolledBack seg
    damaged := tableSegments.filterMap fun seg => s.damage seg
    withheld := (List.finRange 32).filter fun i => t.withholds i
    fallbacks := (List.finRange 32).filterMap fun i => (t1.brokenFallback i).map fun f => (i, f)
    entries := (List.finRange 64).filter fun i => t1.dropFallbacks.disables i }

/-- The last-job statuses after start-up (R192). -/
def State.startStatus (s : State) : State :=
  s.updStore fun x =>
    match s.markerData with
    | none => { x with hostStatus := .none, opsStatus := .none }
    | some m => { x with
        hostStatus := if m.lastHost = 0 then .none else .completed m.lastHost
        opsStatus := match m.kind with
          | .opsSave => .completed s.markerNumber
          | .hostCommit => .none }

/-! ### The end of start-up (R192) -/

/-- The counts are loaded and every row is taken as previously not configured (R6). -/
def State.loadCounts (d : OpsData) (s : State) : State :=
  s.updRows fun c r =>
    let x := d.counts.getD c.val (0, 0)
    { r with path := none, operations := x.1, hotMoves := x.2 }

def State.loadSaved (d : OpsData) (s : State) : State :=
  (s.updStation .A fun r => { r with saved := d.saved.a }).updStation .B fun r =>
    { r with saved := d.saved.b }

/-- Start-up resolution of a station (R155): governing entry and marks, when the clock is VALID. -/
def State.resolveAtStart (st : Station) (s : State) : State :=
  match s.clock.time with
  | none => s
  | some t => (s.setGoverning st (s.governs st t)).markFired (s.passedToday st t) t.date

/-- The slot a station's restore request names (R56). -/
def State.restoreSlot (s : State) (st : Station) : Option (Fin 32) :=
  match (s.station st).governing.bind fun i => s.entry i with
  | some e => some e.target
  | none =>
    match (s.station st).saved with
    | some (slot, _) => if s.activeFor slot st then some slot else none
    | none => none

/-- A station's restore request (R56). -/
def Ev.restoreRequest (e : Ev) (st : Station) : Ev :=
  match e.s.restoreSlot st with
  | some slot => (e.intake st { slot := slot, priority := .commanded, source := .restore }).1
  | none => e

/-- Authority at the end of a start-up after a power-on reset (R198). -/
def State.grantAuthority (s : State) : State :=
  if s.link.grantAtStart then
    { s with link := { s.link with authority := s.tables.code.isNone, grantAtStart := false } }
  else s

/-- The event that ends store start-up, up to the restore requests (R192). -/
def State.endStartup (s : State) : State :=
  let s := s.chooseBanks
  let loaded := s.loadTables
  let ops := s.loadOps
  let report := s.report loaded
  let s := { s.startStatus with tables := loaded.neutralize, started := true }
  let s := ((s.loadCounts ops).applyConfig s.tables.site.config).examineAll
  let s := s.loadSaved ops
  let s := (s.resolveAtStart .A).resolveAtStart .B
  s.grantAuthority.raise (.storeRestored report)

def execStoreStartupEnd (dt : Nat) (s : State) : Host.Outcome State Fault Refusal :=
  if s.started then (s.elapse dt).conclude
  else (((s.elapse dt).endStartup.event.restoreRequest .A).restoreRequest .B).conclude

end Sys2Proof.Machine
end

