-- ==== Sys2Proof/Machine/Resets.lean ====
section
/-! DEFINITION. The two resets (R6, R40, R59, R87, R102, R136, R138, R167, R177, R187, R194, R198, R199). -/

namespace Sys2Proof.Machine

/-- What both resets leave: the reset state, but for the time, the model's counters, the banks of the record
store, the clock record and the waiting commands. The job being run is cut off and its queue emptied
(R187). -/
def State.afterReset (lbr : BitVec 3) (s : State) : State :=
  { State.reset with
    now := s.now
    races := s.races
    storeLooks := s.storeLooks
    store := { s.store with running := none, waiting := [] }
    clock := s.clock
    scan := { resetDone := false, due := s.now }
    link := { State.reset.link with rate := lbr }
    pending := s.pending }

/-- The clock record after a power-on reset (R138). -/
def Clock.powerOn (now : Nat) (kept : Bool) (c : Clock) : Clock :=
  if kept then
    { c.runOn now with
      source := .internal, run := 0, lastPulse := none, kept := true, absentDue := some (now + 4000) }
  else
    { time := none, source := .internal, run := 0, lastPulse := none, reference := now,
      boundary := now, kept := false, absentDue := some (now + 4000) }

/-- A power-on reset: authority is not held until start-up grants it (R198). -/
def execPowerOnReset (dt : Nat) (vkeep : Bool) (lbr : BitVec 3) (s : State) :
    Host.Outcome State Fault Refusal :=
  let s := (s.elapse dt).afterReset lbr
  (s.updClock (Clock.powerOn s.now vkeep)).conclude

/-- An external reset: the clock and authority stand (R138, R198). Where it comes before the start-up of a power-on
reset has ended, the grant that start-up would have made is dropped (log entry 47). -/
def execExternalReset (dt : Nat) (lbr : BitVec 3) (s : State) : Host.Outcome State Fault Refusal :=
  let authority := s.link.authority
  let s := (s.elapse dt).afterReset lbr
  State.conclude { s with link := { s.link with authority := authority, grantAtStart := false } }

end Sys2Proof.Machine
end

