-- ==== Sys2Proof/Machine/Reads.lean ====
section
/-! DEFINITION. The owners' answers to the requests that read: lookups (R166, R167) and the READ requests of
R22, R57, R85, R105, R135, R144 and R193. The bodies' encodings follow R203; the choices it leaves are in log
entries 17, 21 to 27 and 37 to 42. -/

namespace Sys2Proof.Machine

/-- A mark byte, 01h when set (R203). -/
def markByte (b : Bool) : List Byte := u8 (if b then 1 else 0)

/-! ### Lookups (R166, R167, R30, R3) -/

/-- The site record layout of a lookup: the code-set flag in place of the code (R3). -/
def siteLookup (x : Site) (codeSet : Bool) : List Byte := x.bytes ++ u8 (if codeSet then 2 else 1)

/-- A schedule entry of a lookup, with the last-fired date of the entry number (R145). -/
def State.entryLookup (s : State) (i : Fin 64) (content : Option Entry) : List Byte :=
  match content with
  | some e => e.bytes ++ dateBytes s.lastFired[i]
  | none => u8 1

/-- The working record of a lookup. -/
def State.workingLookup (s : State) (r : RecordId) : List Byte :=
  match r with
  | .pattern slot => patternBytes (s.pattern slot)
  | .schedule i => s.entryLookup i (s.entry i)
  | .site => siteLookup s.tables.site s.tables.code.isSome

/-- The staged record of a lookup in the STAGED_FIRST view (R30, R166). -/
def State.stagedLookup (s : State) (e : StagedEntry) : List Byte :=
  match e with
  | .pattern slot content => patternBytes (content.map fun p => ⟨p, s.nextVersion slot⟩)
  | .schedule i content => s.entryLookup i content
  | .site x form => siteLookup x (form.apply s.tables.code).isSome

/-- The body of a lookup: kind, index, the record, the staged mark. -/
def State.lookupBody (s : State) (r : RecordId) (view : View) : List Byte :=
  u8 r.kindCode ++ u8 r.index ++
  match view, s.staged r with
  | .stagedFirst, some e => s.stagedLookup e ++ markByte true
  | _, _ => s.workingLookup r ++ markByte false

/-- LOOKUP (R166): OK sets the cursor (R167). -/
def State.lookup (fields : List Byte) (s : State) : State × Reply :=
  match recordIdOf (fieldAt fields 0) (fieldAt fields 1) with
  | .error e => (s, e)
  | .ok r =>
    match viewOf (fieldAt fields 2) with
    | none => (s, Reply.fieldError 22)
    | some view =>
      ({ s with link := { s.link with cursor := some { record := r, view := view } } },
       Reply.ok (s.lookupBody r view))

/-- The record after a record of its kind, if there is one (R167). -/
def RecordId.next : RecordId → Option RecordId
  | .pattern slot => (finOf 32 (slot.val + 1)).map RecordId.pattern
  | .schedule i => (finOf 64 (i.val + 1)).map RecordId.schedule
  | .site => none

/-- LOOKUP_NEXT (R167). -/
def State.lookupNext (_fields : List Byte) (s : State) : State × Reply :=
  match s.link.cursor with
  | none => (s, Reply.refuse .wrongState)
  | some c =>
    match c.record.next with
    | none => (s, ⟨.endOfKind, []⟩)
    | some r =>
      ({ s with link := { s.link with cursor := some { c with record := r } } },
       Reply.ok (s.lookupBody r c.view))

/-! ### READ_STATION (R57) -/

def Request.bytes (r : Request) : List Byte := u8 r.slot.val ++ u8 r.priority.rank ++ r.source.bytes

/-- A station's in-service snapshot (R57); its settings are sent as one list, in stage order (log entry 37). -/
def InService.bytes (v : InService) : List Byte :=
  u8 v.snap.slot.val ++ u16 v.snap.version ++ text v.snap.pattern.label ++
  listOf Setting.bytes v.snap.pattern.settings ++ listOf Window.bytes v.snap.pattern.windows ++
  u8 v.snap.pattern.powerStep ++ opt8 (v.snap.pattern.fallback.map (·.val)) ++
  yesNo v.byProtection ++ u8 v.verified.code

def LastOutcome.bytes (o : LastOutcome) : List Byte :=
  u8 o.outcome.code ++ whyBytes o.why ++ u8 o.slot.val ++ o.source.bytes ++ u8 o.priority.rank

/-- A structure behind the mark that it is absent. -/
def marked {α : Type} (f : α → List Byte) : Option α → List Byte
  | some x => markByte false ++ f x
  | none => markByte true

def StationRecord.bytes (r : StationRecord) : List Byte :=
  u8 r.arrayState.code ++ opt8 (r.faultReason.map FaultReason.code) ++
  marked InService.bytes r.inService ++ yesNo r.revised ++ u8 r.claims.code ++
  u8 (if r.permit then 1 else 2) ++ u8 r.powerStep ++ u8 (if r.carrier then 1 else 2) ++
  marked Request.bytes r.request ++ marked LastOutcome.bytes r.lastOutcome ++ savedBytes r.saved ++
  yesNo r.suspended ++ opt8 (r.governing.map (·.val))

/-- A read that names one station. -/
def State.readOf (body : State → Station → List Byte) (fields : List Byte) (s : State) :
    State × Reply :=
  match stationOf (fieldAt fields 0) with
  | none => (s, Reply.fieldError 0)
  | some st => (s, Reply.ok (body s st))

/-- READ_STATION (R57). -/
def State.readStation (fields : List Byte) (s : State) : State × Reply :=
  s.readOf (fun s st => (s.station st).bytes) fields

/-! ### READ_TRANSITION (R85) -/

/-- A time left in ms; every bit set when the timer does not run. -/
def State.leftBytes (s : State) (t : Option Nat) : List Byte := opt32 (t.map s.timeLeft)

/-- The body of READ_TRANSITION (R85); a unit without a target has an empty label (log entry 38), and the tower
marks are sent tower by tower in the order of the windows (log entry 40). -/
def State.transitionBody (s : State) (st : Station) : List Byte :=
  let u := s.unit st
  u8 u.phase.code ++ opt8 (u.target.map (·.slot.val)) ++ opt16 (u.target.map (·.version)) ++
  text ((u.target.map (·.pattern.label)).getD []) ++ opt8 (u.priority.map (·.rank)) ++
  optSource u.source ++ yesNo u.waiting ++ contactorBits u.moving ++ u8 (StationSet.code u.muted) ++
  opt8 (u.target.map (·.pattern.stages.length)) ++ opt8 u.stage ++
  listOf (fun c => u8 c.val) u.moved ++ contactorBits u.outstanding ++
  opt8 (u.heldBy.map (·.val)) ++ yesNo u.breach.isSome ++ s.leftBytes u.breach ++
  markByte u.closing.isSome ++ opt8 (u.closing.map Cause.code) ++ optContactorBits u.deferred ++
  s.leftBytes u.timer ++ listOf (fun m => u8 (m.1.val + 1) ++ u8 m.2.code) u.marks

/-- READ_TRANSITION (R85). -/
def State.readTransition (fields : List Byte) (s : State) : State × Reply :=
  s.readOf State.transitionBody fields

/-! ### READ_CONTACTOR (R22) -/

def State.rowBytes (s : State) (c : Fin 48) : List Byte :=
  let r := s.row c
  u8 c.val ++ yesNo r.path.isSome ++ opt8 (r.path.map Path.code) ++ u8 r.sensed.code ++
  opt8 (r.commanded.map Position.code) ++ u8 r.claim.code ++ u8 r.condition.code ++
  opt16 r.lastTravel ++ u32 r.operations ++ u16 r.hotMoves ++ yesNo r.maintenance

/-- READ_CONTACTOR (R22). -/
def State.readContactor (fields : List Byte) (s : State) : State × Reply :=
  let first := fieldAt fields 0
  let last := fieldAt fields 1
  if 47 < first ∨ 47 < last then (s, Reply.fieldError 0)
  else if last < first then (s, Reply.fieldError 0)
  else if 15 < last - first + 1 then (s, Reply.fieldError 0)
  else
    (s, Reply.ok (listOf s.rowBytes
      (allContactors.filter fun c => decide (first ≤ c.val ∧ c.val ≤ last))))

/-! ### READ_READINGS (R135) -/

/-- The silence field with its time left. -/
def State.silenceBytes (s : State) : Silence → List Byte
  | .notWatched => u8 1 ++ opt32 none
  | .watched t => u8 2 ++ u32 (s.timeLeft t)
  | .silent => u8 3 ++ opt32 none

def State.cellBytes (s : State) (st : Station) (tower : Fin 8) : List Byte :=
  let c := s.cell st tower
  opt16 c.ratio ++
  (match c.phase with
   | some p => i16 p
   | none => opt16 none) ++
  yesNo c.valid ++ opt16 (c.arrival.map fun t => min 65535 ((s.now - t) / 1000)) ++ u8 c.run ++
  s.silenceBytes c.silence

def OpenFailure.bytes (f : OpenFailure) : List Byte :=
  u8 f.kind.code ++ u8 f.slot.val ++ u16 f.version ++ u8 f.fallback.val ++
  u8 (if f.running then 2 else 1)

def State.readingsBody (s : State) (st : Station) : List Byte :=
  ((List.finRange 8).flatMap fun t => s.cellBytes st t) ++ yesNo (s.monitor.supervised.get st) ++
  marked OpenFailure.bytes (s.monitor.failures.get st) ++ u16 s.monitor.discards

/-- READ_READINGS (R135). -/
def State.readReadings (fields : List Byte) (s : State) : State × Reply :=
  s.readOf State.readingsBody fields

/-! ### READ_CLOCK (R144) -/

def State.clockBody (s : State) : List Byte :=
  u8 (if s.clock.time.isSome then 1 else 2) ++ timeBytes s.clock.time ++ u8 s.clock.source.code ++
  u8 s.clock.run ++ opt32 (s.clock.lastPulse.map fun p => min 65535 (s.now - p)) ++
  yesNo s.clock.kept

/-- READ_CLOCK (R144). -/
def State.readClock (_fields : List Byte) (s : State) : State × Reply := (s, Reply.ok s.clockBody)

/-! ### READ_STORE (R193) -/

/-- The step of a write, as the free value names it (log entry 19). -/
def stepOf : Fin 3 → WriteStep
  | 0 => .erase
  | 1 => .records
  | 2 => .header

/-- The running job in READ_STORE's body (R193). The write list is the segments of R183's order, without the marker
that the example of section 10.10 names with them (log entry 44). -/
def Job.bytes (job : Job) : List Byte :=
  u8 job.kind.code ++ u32 job.number ++ listOf (fun x => u8 (Segment.id x)) job.list ++
  u8 (Segment.id job.writing) ++ u8 (WriteStep.code job.step)

def WaitingJob.bytes (w : WaitingJob) : List Byte :=
  u8 w.kind.code ++
  match w.kind with
  | .hostCommit => opt32 none
  | .opsSave => u32 w.merged

/-- A member of the commit-in-progress set (R193; log entry 42). -/
def carriedBytes (x : RecordId × Bool) : List Byte :=
  u8 x.1.kindCode ++ u8 x.1.index ++ u8 (actionCode x.2)

/-- The body of READ_STORE (R193); its sets of segments and of records are sent as lists (log entry 42). -/
def State.storeBody (s : State) : List Byte :=
  u32 s.markerNumber ++ opt8 (s.markerData.map fun m => m.kind.code) ++ u32 s.lastHostCommit ++
  s.store.hostStatus.bytes ++ s.store.opsStatus.bytes ++
  marked Job.bytes s.store.running ++
  listOf WaitingJob.bytes s.store.waiting ++
  listOf (fun x => u8 (Segment.id x)) (tableSegments.filter fun seg => (s.pair seg).stale) ++
  u8 s.staging.length ++ listOf carriedBytes ((s.commit.map (·.carried)).getD [])

/-- A look at the store: the write in progress is found at a step that the free value names, and never before the
step an earlier look at the same write has shown (R181; log entry 19). -/
def State.lookAtStore (s : State) : State :=
  { s with
    storeLooks := s.storeLooks + 1
    store := { s.store with
      running := s.store.running.map fun job =>
        { job with step := WriteStep.later job.step (stepOf (Config.storeStep s.storeLooks)) } } }

/-- READ_STORE (R193). -/
def State.readStore (_fields : List Byte) (s : State) : State × Reply :=
  (s.lookAtStore, Reply.ok s.lookAtStore.storeBody)

/-! ### READ_HOLDS (R105) -/

/-- A hold point (R105): a CONTACTOR point's number fills the place of a STAGE point's two (log entry 39). -/
def HoldPoint.bytes (h : HoldPoint) : List Byte :=
  (match h.kind with
   | .contactor c => u8 1 ++ u8 c.val ++ opt8 none
   | .stage st n => u8 2 ++ u8 (Station.code st) ++ u8 n) ++ yesNo h.armed

/-- The stations whose transition is HELD with held by naming the point. -/
def State.heldAt (s : State) (i : Fin 4) : StationSet :=
  let held (st : Station) : Bool :=
    decide ((s.unit st).phase = .held) && decide ((s.unit st).heldBy = some i)
  ⟨held .A, held .B⟩

def State.holdsBody (s : State) : List Byte :=
  (List.finRange 4).flatMap fun i =>
    marked HoldPoint.bytes s.holds[i] ++ u8 (StationSet.code (s.heldAt i))

/-- READ_HOLDS (R105). -/
def State.readHolds (_fields : List Byte) (s : State) : State × Reply := (s, Reply.ok s.holdsBody)

end Sys2Proof.Machine
end

