-- ==== Sys2Proof/Machine/Edits.lean ====
section
/-! DEFINITION. The owners' answers to the requests that edit the staging queue and commit it (R160 to R165,
R168, R169). -/

namespace Sys2Proof.Machine

/-- An edit is answered COMMITTING while a commit runs, and is judged otherwise (R161). -/
def State.edit (owner : List Byte → State → State × Reply) (fields : List Byte) (s : State) :
    State × Reply :=
  if s.commit.isSome then (s, Reply.refuse .committing) else owner fields s

/-- Write an entry into the queue, unless it would be a seventeenth (R162 step 3, R163 step 5); OK carries the
entry's position and the occupancy. -/
def State.place (e : StagedEntry) (s : State) : State × Reply :=
  if (s.staged e.id).isNone ∧ 16 ≤ s.staging.length then (s, Reply.refuse .full)
  else
    let t := { s with staging := putEntry e s.staging }
    (t, Reply.ok (u8 (t.stagedPosition e.id) ++ u8 t.staging.length))

/-! ### Content checked whole, as a queue entry -/

def State.patternEntry (s : State) (slot : Fin 32) (r : RawPattern) : Except Reply StagedEntry :=
  (checkPattern s.referenceSites r).map fun p => .pattern slot (some p)

def scheduleEntry (i : Fin 64) (r : RawEntry) : Except Reply StagedEntry :=
  (checkEntry r).map fun e => .schedule i (some e)

def siteEntry (r : RawSite) : Except Reply StagedEntry :=
  (checkSite r).map fun x => .site x.1 x.2

/-- Place an entry that passed its check, or answer the check's refusal. -/
def State.placeChecked (x : Except Reply StagedEntry) (s : State) : State × Reply :=
  match x with
  | .ok e => s.place e
  | .error r => (s, r)

/-! ### RETIRE (R164) -/

/-- OK with the record's position and the occupancy. -/
def State.positionReply (s : State) (r : RecordId) : Reply :=
  Reply.ok (u8 (s.stagedPosition r) ++ u8 s.staging.length)

/-- The entry of a RETIRE, and whether the working record is VACANT; `none` for the site record. -/
def State.retireEntry (s : State) : RecordId → Option (StagedEntry × Bool)
  | .pattern slot => some (.pattern slot none, (s.pattern slot).isNone)
  | .schedule i => some (.schedule i none, (s.entry i).isNone)
  | .site => none

/-- RETIRE of a record (R164). -/
def State.retireRecord (r : RecordId) (s : State) : State × Reply :=
  match s.retireEntry r with
  | none => (s, Reply.refuse .wrongState)
  | some (entry, vacant) =>
    match s.staged r with
    | some e => if e.isRetire then (s, s.positionReply r) else s.place entry
    | none => if vacant then (s, Reply.refuse .vacant) else s.place entry

/-- RETIRE (R164). -/
def State.retire (fields : List Byte) (s : State) : State × Reply :=
  match recordIdOf (fieldAt fields 0) (fieldAt fields 1) with
  | .error e => (s, e)
  | .ok r => s.retireRecord r

/-! ### STAGE (R162) -/

/-- A STAGE whose kind and index passed (R162). -/
def State.stageRecord (r : RecordId) (f : StageFields) (s : State) : State × Reply :=
  if f.action = 2 then s.retireRecord r
  else
    match r, f.record with
    | .pattern slot, .pattern x =>
      if x.state = 2 then s.placeChecked (s.patternEntry slot x) else (s, Reply.fieldError 21)
    | .schedule i, .entry x => s.placeChecked (scheduleEntry i x)
    | .site, .site x => s.placeChecked (siteEntry x)
    | _, _ => (s, Reply.fieldError 21)

/-- STAGE (R162). -/
def State.stage (fields : List Byte) (s : State) : State × Reply :=
  match readStage fields with
  | none => (s, Reply.refuse .badLength)
  | some f =>
    match recordIdOf f.kind f.index with
    | .error e => (s, e)
    | .ok r => s.stageRecord r f

/-! ### AMEND (R163) -/

/-- The field code of an AMEND naming a field outside its kind's list (R163). -/
def amendRefusal : Kind → Nat
  | .pattern => 18
  | .schedule => 23
  | .site => 44

/-- The base content of an AMEND of a pattern (R163). -/
def State.patternBase (s : State) (slot : Fin 32) : Except Reply RawPattern :=
  match s.staged (.pattern slot) with
  | some (.pattern _ (some p)) => .ok p.raw
  | some _ => .error (Reply.refuse .wrongState)
  | none =>
    match s.pattern slot with
    | some v => .ok v.pattern.raw
    | none => .error (Reply.refuse .vacant)

/-- The base content of an AMEND of a schedule entry (R163). -/
def State.entryBase (s : State) (i : Fin 64) : Except Reply RawEntry :=
  match s.staged (.schedule i) with
  | some (.schedule _ (some e)) => .ok e.raw
  | some _ => .error (Reply.refuse .wrongState)
  | none =>
    match s.entry i with
    | some e => .ok e.raw
    | none => .error (Reply.refuse .vacant)

/-- The base content of an AMEND of the site record: a copied one has its code absent (R163). -/
def State.siteBase (s : State) : RawSite :=
  match s.stagedSite with
  | some (x, form) => x.raw form
  | none => s.tables.site.raw .absent

/-- A merged value that does not read as its field; R195's length test leaves none but a site code of no
form. -/
def mergeRefusal : Reply := Reply.fieldError 43

/-- The merged content of an AMEND, checked whole (R163 steps 3 and 4). -/
def State.amendEntry (r : RecordId) (f : AmendFields) (s : State) : Except Reply StagedEntry :=
  match r with
  | .pattern slot =>
    (s.patternBase slot).bind fun base =>
      match base.amend f.id f.value with
      | some x => s.patternEntry slot x
      | none => .error mergeRefusal
  | .schedule i =>
    (s.entryBase i).bind fun base =>
      match base.amend f.id f.value with
      | some x => scheduleEntry i x
      | none => .error mergeRefusal
  | .site =>
    match s.siteBase.amend f.id f.value with
    | some x => siteEntry x
    | none => .error mergeRefusal

def RecordId.kind : RecordId → Kind
  | .pattern _ => .pattern
  | .schedule _ => .schedule
  | .site => .site

/-- AMEND (R163). -/
def State.amend (fields : List Byte) (s : State) : State × Reply :=
  match readAmend fields with
  | none => (s, Reply.refuse .badLength)
  | some f =>
    match recordIdOf f.kind f.index with
    | .error e => (s, e)
    | .ok r =>
      if (amendIds r.kind).contains f.id then s.placeChecked (s.amendEntry r f)
      else (s, Reply.fieldError (amendRefusal r.kind))

/-! ### DISCARD and DISCARD_ALL (R165) -/

/-- DISCARD (R165). -/
def State.discard (fields : List Byte) (s : State) : State × Reply :=
  match recordIdOf (fieldAt fields 0) (fieldAt fields 1) with
  | .error e => (s, e)
  | .ok r =>
    match s.staged r with
    | none => (s, Reply.refuse .wrongState)
    | some _ =>
      let t := { s with staging := s.staging.filter fun x => x.id ≠ r }
      (t, Reply.ok (u8 t.staging.length))

/-- DISCARD_ALL (R165). -/
def State.discardAll (_fields : List Byte) (s : State) : State × Reply :=
  ({ s with staging := [] }, Reply.ok [])

/-! ### COMMIT (R168, R169) -/

/-- Order 3 of R168: what a site-record commit may not meet. -/
def State.busyForSite (s : State) : Bool :=
  s.stagedSite.isSome &&
  (decide (s.units.a.phase ≠ .idle) || decide (s.units.b.phase ≠ .idle) ||
   s.stations.a.request.isSome || s.stations.b.request.isSome ||
   allContactors.any fun c => (s.row c).claim = .manual)

/-- The segments the queue's entries touch, each once (R169). -/
def State.touched (s : State) : List Segment :=
  tableSegments.filter fun seg => s.staging.any fun x => x.id.segment = seg

/-- The slot a carried REPLACE of a pattern gives a version, with that version (R169). -/
def State.fixedVersion (s : State) : StagedEntry → Option (Fin 32 × Nat)
  | .pattern slot (some _) => some (slot, s.nextVersion slot)
  | _ => none

/-- The commit-in-progress set and the versions of an accepted commit (R169). -/
def State.commitRun (s : State) : CommitRun :=
  { carried := s.staging.map fun x => (x.id, x.isRetire)
    versions := s.staging.filterMap s.fixedVersion }

/-- Acceptance of a commit (R169). -/
def Ev.acceptCommit (e : Ev) : Ev :=
  let job : WaitingJob := { kind := .hostCommit, touched := e.s.touched, merged := 0 }
  (e.on fun s => { s with commit := some s.commitRun }).handJob job

/-- COMMIT (R168). -/
def Ev.commit (_fields : List Byte) (e : Ev) : Ev × Reply :=
  if e.s.commit.isSome then (e, Reply.refuse .committing)
  else if e.s.staging.isEmpty then (e, Reply.refuse .wrongState)
  else if e.s.busyForSite then (e, Reply.refuse .busy)
  else
    match e.s.validate with
    | some r => (e, r)
    | none =>
      (e.acceptCommit, ⟨.accepted, u8 e.s.staging.length ++ u8 (e.s.touched.length + 1)⟩)

end Sys2Proof.Machine
end

