-- ==== Sys2Proof/Machine/Operations.lean ====
section
/-! DEFINITION. The owners' answers to the operation requests: counters and contactor faults (R18, R21, R184),
TRANSITION and ABORT (R51, R114, R115), holds (R103, R104, R108), carrier (R49, R50) and MANUAL_MOVE (R99,
R100). -/

namespace Sys2Proof.Machine

/-! ### Contactor requests (R18, R21) -/

/-- RESET_COUNTERS (R21). -/
def Ev.resetCounters (fields : List Byte) (e : Ev) : Ev × Reply :=
  match finOf 48 (fieldAt fields 0) with
  | none => (e, Reply.fieldError 0)
  | some c =>
    ((e.on (State.updRow c fun r =>
        { r with operations := 0, hotMoves := 0, maintenance := false })).requestSave, Reply.ok [])

/-- Whether CLEAR_CONTACTOR_FAULT clears the row (R18). -/
def Row.clearable (r : Row) : Bool :=
  r.path.isSome &&
  match r.condition with
  | .normal | .slow => false
  | .stuck | .drifted => true
  | .conflict => decide (r.sensed ≠ .conflict)

/-- CLEAR_CONTACTOR_FAULT (R18). -/
def State.clearContactorFault (fields : List Byte) (s : State) : State × Reply :=
  match finOf 48 (fieldAt fields 0) with
  | none => (s, Reply.fieldError 0)
  | some c =>
    if (s.row c).clearable then
      (s.updRow c fun r => { r with condition := .normal }, Reply.ok [])
    else (s, Reply.refuse .wrongState)

/-- SAVE_COUNTERS (R184). -/
def Ev.saveCounters (_fields : List Byte) (e : Ev) : Ev × Reply :=
  let code :=
    match e.s.saveResult with
    | .started => 1
    | .joined => 2
    | .merged => 3
  (e.requestSave, ⟨.accepted, u8 code⟩)

/-! ### TRANSITION (R51, R52) -/

/-- The checks of R51 after the station and the slot. -/
def State.transitionRefusal (s : State) (st : Station) (slot : Fin 32) : Option Status :=
  match s.pattern slot with
  | none => some .vacant
  | some v =>
    if v.pattern.station ≠ st then some .wrongStation
    else if s.retiring slot then some .retiring
    else none

/-- The host response to an intake (R52, R196). -/
def Intake.reply : Intake → Reply
  | .started => ⟨.accepted, u8 1⟩
  | .pending => ⟨.accepted, u8 2⟩
  | .absorbed => ⟨.absorbed, []⟩
  | .refused => Reply.refuse .busy

/-- TRANSITION (R51). -/
def Ev.transition (fields : List Byte) (e : Ev) : Ev × Reply :=
  match stationOf (fieldAt fields 0) with
  | none => (e, Reply.fieldError 0)
  | some st =>
    match finOf 32 (fieldAt fields 1) with
    | none => (e, Reply.fieldError 0)
    | some slot =>
      match e.s.transitionRefusal st slot with
      | some status => (e, Reply.refuse status)
      | none =>
        let (e, x) := e.intake st { slot := slot, priority := .commanded, source := .host }
        (e, x.reply)

/-! ### ABORT (R114, R115) -/

/-- The pending request that an ABORT removes (R114 step 1). -/
def State.removable (s : State) (st : Station) : Option Request :=
  (s.station st).request.filter fun r => r.priority ≠ .protective

/-- An ABORT of a transition in flight that is not closing, by its phase (R115). -/
def Ev.abortByPhase (st : Station) (e : Ev) : Ev :=
  match (e.s.unit st).phase with
  | .idle => e
  | .claiming | .muting => e.finish st .failedNoMove (some ⟨.aborted, none⟩)
  | .driving | .held => e.startClosing st .aborted
  | .settling | .verifying => e.finish st .completedUnverified (some ⟨.aborted, none⟩)

/-- The body of an ABORT: the phase found, whether a request was removed, and that request. -/
def abortBody (phase : Phase) (removed : Option Request) : List Byte :=
  u8 phase.code ++ yesNo removed.isSome ++ opt8 (removed.map (·.slot.val)) ++
  optSource (removed.map (·.source)) ++ opt8 (removed.map (·.priority.rank))

/-- ABORT (R114). -/
def Ev.abort (fields : List Byte) (e : Ev) : Ev × Reply :=
  match stationOf (fieldAt fields 0) with
  | none => (e, Reply.fieldError 0)
  | some st =>
    let removed := e.s.removable st
    let u := e.s.unit st
    let body := abortBody u.phase removed
    let e := if removed.isSome then e.on (State.updStation st fun r => { r with request := none }) else e
    if u.phase = .idle then
      (e, if removed.isSome then Reply.ok body else Reply.refuse .wrongState)
    else if u.closing.isSome then (e, Reply.ok body)
    else
      let e := e.abortByPhase st
      (e, if (e.s.unit st).closing.isSome then ⟨.accepted, body⟩ else Reply.ok body)

/-! ### Holds (R103, R104, R108) -/

/-- CONTINUE (R108). -/
def Ev.continueHeld (fields : List Byte) (e : Ev) : Ev × Reply :=
  match stationOf (fieldAt fields 0) with
  | none => (e, Reply.fieldError 0)
  | some st =>
    if (e.s.unit st).phase = .held ∧ (e.s.unit st).closing.isNone then (e.resume st, Reply.ok [])
    else (e, Reply.refuse .wrongState)

/-- The kind of hold point that a SET_HOLD names (R103 orders 2 to 4). -/
def holdKindOf (kind second third : Nat) : Option HoldKind :=
  match kind with
  | 1 => (finOf 48 second).map HoldKind.contactor
  | 2 =>
    match stationOf second with
    | some st => if 1 ≤ third ∧ third ≤ 6 then some (.stage st third) else none
    | none => none
  | _ => none

/-- An armed value; `none` for a byte that is neither no nor yes (log entry 18). -/
def armedOf : Nat → Option Bool
  | 0 => some false
  | 1 => some true
  | _ => none

/-- SET_HOLD (R103). -/
def State.setHold (fields : List Byte) (s : State) : State × Reply :=
  match finOf 4 (fieldAt fields 0),
      holdKindOf (fieldAt fields 1) (fieldAt fields 2) (fieldAt fields 3),
      armedOf (fieldAt fields 4) with
  | some i, some kind, some armed =>
    ({ s with holds := s.holds.set i (some { kind := kind, armed := armed }) }, Reply.ok [])
  | _, _, _ => (s, Reply.fieldError 0)

/-- CLEAR_HOLD (R104): a point, or all of them for FFh. -/
def State.clearHold (fields : List Byte) (s : State) : State × Reply :=
  if fieldAt fields 0 = 0xFF then ({ s with holds := Vector.replicate 4 none }, Reply.ok [])
  else
    match finOf 4 (fieldAt fields 0) with
    | some i => ({ s with holds := s.holds.set i none }, Reply.ok [])
    | none => (s, Reply.fieldError 0)

/-! ### Carrier (R49, R50) -/

def StationRecord.setHostHold (on : Bool) (r : StationRecord) : StationRecord :=
  { r with claims := { r.claims with hostHold := on } }

/-- CARRIER_HOLD (R49). -/
def Ev.carrierHold (fields : List Byte) (e : Ev) : Ev × Reply :=
  match stationOf (fieldAt fields 0) with
  | none => (e, Reply.fieldError 0)
  | some st =>
    let e := e.on (State.updStation st (StationRecord.setHostHold true))
    (e, Reply.ok (u8 (e.s.station st).claims.code))

/-- CARRIER_RELEASE (R50). -/
def Ev.carrierRelease (fields : List Byte) (e : Ev) : Ev × Reply :=
  match stationOf (fieldAt fields 0) with
  | none => (e, Reply.fieldError 0)
  | some st =>
    if (e.s.station st).claims.hostHold then
      let e := e.on (State.updStation st (StationRecord.setHostHold false))
      (e, Reply.ok (u8 (e.s.station st).claims.code))
    else (e, Reply.refuse .wrongState)

/-! ### MANUAL_MOVE (R99, R100) -/

/-- The checks of R99 from order 2 on. -/
def State.moveRefusal (s : State) (c : Fin 48) (p : Position) : Option Reply :=
  match (s.row c).path with
  | none => some (Reply.refuse .wrongState)
  | some path =>
    if (s.row c).condition = .conflict then some ⟨.contactorFault, u8 c.val⟩
    else if (s.row c).claim ≠ .none then some (Reply.refuse .busy)
    else if s.manual.isSome then some (Reply.refuse .busy)
    else if s.siteCommitRunning then some (Reply.refuse .committing)
    else if path.stations.members.any fun st => !(s.station st).claims.hostHold then
      some (Reply.refuse .notPermitted)
    else if path.stations.members.any fun st => (s.station st).carrier then
      some (Reply.refuse .notPermitted)
    else if s.standsAt c p then some (Reply.refuse .wrongState)
    else none

/-- FAULT is placed on the stations whose snapshot lists the contactor at the other position (R100
step 2). -/
def State.faultBroken (c : Fin 48) (p : Position) (s : State) : State :=
  match (s.row c).path with
  | none => s
  | some path =>
    path.stations.members.foldl (fun s st =>
      match s.inServiceLists st c with
      | some pos => if pos = p then s else s.updStation st StationRecord.placeFault
      | none => s) s

/-- Acceptance of a MANUAL_MOVE (R100). -/
def State.acceptMove (c : Fin 48) (p : Position) (s : State) : State :=
  let s := s.updRow c fun r => { r with claim := .manual }
  let s := s.faultBroken c p
  ({ s with manual := some { contactor := c, position := p } }).submit c p .manual .commanded

/-- MANUAL_MOVE (R99). -/
def Ev.manualMove (fields : List Byte) (e : Ev) : Ev × Reply :=
  match finOf 48 (fieldAt fields 0), positionOf (fieldAt fields 1) with
  | some c, some p =>
    match e.s.moveRefusal c p with
    | some r => (e, r)
    | none => (e.on (State.acceptMove c p), ⟨.accepted, []⟩)
  | _, _ => (e, Reply.fieldError 0)

end Sys2Proof.Machine
end

