-- ==== Sys2Proof/Machine/Attention.lean ====
section
/-! DEFINITION. The owners' answers to the authority requests (R197, R198) and the attention requests (R200 to
R202). -/

namespace Sys2Proof.Machine

def State.updLink (f : Link → Link) (s : State) : State := { s with link := f s.link }

/-- The whole seconds left of a lock-out, rounded up, at least 1 (R196, R197). -/
def State.lockSeconds (s : State) (t : Nat) : Nat := max 1 ((s.timeLeft t + 999) / 1000)

/-- PRESENT_CODE (R197): the first row that applies decides. -/
def State.presentCode (fields : List Byte) (s : State) : State × Reply :=
  match s.link.lockUntil with
  | some t => (s, ⟨.lockedOut, u8 (s.lockSeconds t)⟩)
  | none =>
    match s.tables.code with
    | none => (s.updLink fun l => { l with authority := true }, Reply.ok [])
    | some code =>
      if fields = code then (s.updLink fun l => { l with authority := true }, Reply.ok [])
      else
        (s.updLink fun l => { l with authority := false, lockUntil := some (s.now + 10000) },
         ⟨.lockedOut, u8 10⟩)

/-- REVOKE (R198). -/
def State.revoke (_fields : List Byte) (s : State) : State × Reply :=
  (s.updLink fun l => { l with authority := false }, Reply.ok [])

/-- The bytes of an absent or present detail. -/
def Flag.detailBytes (f : Flag) : List Byte := (f.detail.map Detail.bytes).getD []

/-- The body of READ_ATTENTION (R201); with no flag latched it ends after the absent flag number (log entry 41). -/
def State.attentionBody (s : State) : List Byte :=
  ((List.finRange 16).flatMap fun n =>
    yesNo s.attention[n].latched ++ yesNo s.attention[n].enable ++ u8 s.attention[n].count) ++
  match s.highestFlag with
  | none => opt8 none
  | some n => u8 n.val ++ s.attention[n].detailBytes ++ u8 s.attention[n].count

/-- READ_ATTENTION (R201): a notice reported as highest is cleared after the body has been formed. -/
def State.readAttention (_fields : List Byte) (s : State) : State × Reply :=
  let reply := Reply.ok s.attentionBody
  match s.highestFlag with
  | some n => if isNotice n then (s.updFlag n Flag.clear, reply) else (s, reply)
  | none => (s, reply)

/-- CLEAR_ATTENTION (R202). -/
def State.clearAttention (fields : List Byte) (s : State) : State × Reply :=
  match finOf 16 (fieldAt fields 0) with
  | none => (s, Reply.fieldError 0)
  | some n =>
    if s.attention[n].latched then
      (s.updFlag n Flag.clear, Reply.ok (s.attention[n].detailBytes ++ u8 s.attention[n].count))
    else (s, Reply.refuse .wrongState)

/-- MASK_ATTENTION (R200). -/
def State.maskAttention (fields : List Byte) (s : State) : State × Reply :=
  match finOf 16 (fieldAt fields 0), armedOf (fieldAt fields 1) with
  | some n, some on =>
    (s.updFlag n fun f => { f with enable := on },
     Reply.ok (yesNo s.attention[n].latched ++ u8 s.attention[n].count))
  | _, _ => (s, Reply.fieldError 0)

end Sys2Proof.Machine
end

