-- ==== Sys2Proof/Machine/Link.lean ====
section
/-! DEFINITION. The Host Link: the receiver and its frames (R194), the order in which a request is judged and
answered (R195), the events of the line, and one meaning for each request. -/

namespace Sys2Proof.Machine

/-! ### Judging a request (R195) -/

def Req.byte (r : Req) : Byte := BitVec.ofNat 8 r.code

/-- The first failure of R195, for a request code of the summary. -/
def State.linkRefusal (s : State) (r : Req) (fields : List Byte) : Option Status :=
  if !s.started then some .starting
  else if !r.lengthFits fields then some .badLength
  else if r.needsAuthority && !s.link.authority then some .notAuthorized
  else none

/-- Whether the receiver takes what arrives: in ANSWERING nothing is received (R194). -/
def State.listening (s : State) : Bool := s.link.rx ≠ .answering

/-- A request whose owner leaves transitions, pulses and supervision alone. -/
def answerQuiet (r : Req) (owner : List Byte → State → State × Reply) (fields : List Byte) (s : State) :
    Host.Outcome State Fault Refusal :=
  match s.linkRefusal r fields with
  | some status => (s.respond r.byte (Reply.refuse status)).conclude
  | none => ((owner fields s).1.respond r.byte (owner fields s).2).conclude

/-- A request whose owner may start, end or move a transition, a pulse or supervision. -/
def answerActive (r : Req) (owner : List Byte → Ev → Ev × Reply) (fields : List Byte) (s : State) :
    Host.Outcome State Fault Refusal :=
  match s.linkRefusal r fields with
  | some status => (s.respond r.byte (Reply.refuse status)).conclude
  | none =>
    ((owner fields s.event).1.on (State.respond r.byte (owner fields s.event).2)).conclude

/-- A request of the summary taken from a checked frame, answered by its owner. -/
def State.serve (r : Req) (fields : List Byte) (s : State) : Host.Outcome State Fault Refusal :=
  match r with
  | .lookup => answerQuiet .lookup State.lookup fields s
  | .lookupNext => answerQuiet .lookupNext State.lookupNext fields s
  | .readStation => answerQuiet .readStation State.readStation fields s
  | .readTransition => answerQuiet .readTransition State.readTransition fields s
  | .readContactor => answerQuiet .readContactor State.readContactor fields s
  | .readReadings => answerQuiet .readReadings State.readReadings fields s
  | .readClock => answerQuiet .readClock State.readClock fields s
  | .readStore => answerQuiet .readStore State.readStore fields s
  | .readHolds => answerQuiet .readHolds State.readHolds fields s
  | .stage => answerQuiet .stage (State.edit State.stage) fields s
  | .amend => answerQuiet .amend (State.edit State.amend) fields s
  | .retire => answerQuiet .retire (State.edit State.retire) fields s
  | .discard => answerQuiet .discard (State.edit State.discard) fields s
  | .discardAll => answerQuiet .discardAll (State.edit State.discardAll) fields s
  | .commit => answerActive .commit Ev.commit fields s
  | .setClock => answerActive .setClock Ev.setClock fields s
  | .resetCounters => answerActive .resetCounters Ev.resetCounters fields s
  | .clearContactorFault => answerQuiet .clearContactorFault State.clearContactorFault fields s
  | .transition => answerActive .transition Ev.transition fields s
  | .abort => answerActive .abort Ev.abort fields s
  | .continueHeld => answerActive .continueHeld Ev.continueHeld fields s
  | .setHold => answerQuiet .setHold State.setHold fields s
  | .clearHold => answerQuiet .clearHold State.clearHold fields s
  | .carrierHold => answerActive .carrierHold Ev.carrierHold fields s
  | .carrierRelease => answerActive .carrierRelease Ev.carrierRelease fields s
  | .manualMove => answerActive .manualMove Ev.manualMove fields s
  | .suspendSchedule => answerQuiet .suspendSchedule State.suspendSchedule fields s
  | .resumeSchedule => answerActive .resumeSchedule Ev.resumeSchedule fields s
  | .saveCounters => answerActive .saveCounters Ev.saveCounters fields s
  | .presentCode => answerQuiet .presentCode State.presentCode fields s
  | .revoke => answerQuiet .revoke State.revoke fields s
  | .readAttention => answerQuiet .readAttention State.readAttention fields s
  | .clearAttention => answerQuiet .clearAttention State.clearAttention fields s
  | .maskAttention => answerQuiet .maskAttention State.maskAttention fields s

/-- The arrival of a whole checked frame of a request; nothing is received while answering (log entry
31). -/
def State.takeRequest (dt : Nat) (r : Req) (fields : List Byte) (s : State) :
    Host.Outcome State Fault Refusal :=
  if s.listening then (s.elapse dt).serve r fields else (s.elapse dt).conclude

/-! ### Requests outside the summary (R195) -/

/-- A checked frame whose code is not in the summary. -/
def State.serveUnknown (code : Byte) (s : State) : Host.Outcome State Fault Refusal :=
  if s.started then (s.respond code (Reply.refuse .unknownRequest)).conclude
  else (s.respond code (Reply.refuse .starting)).conclude

def execUnknownRequest (dt : Nat) (code : Byte) (_fields : List Byte) (s : State) :
    Host.Outcome State Fault Refusal :=
  if s.listening ∧ requestOf code.toNat = none then (s.elapse dt).serveUnknown code
  else (s.elapse dt).conclude

/-! ### The receiver (R194) -/

/-- The receiver is SEEKING again. -/
def State.seekHost (s : State) : State := s.updLink fun l => { l with rx := .seeking }

/-- A complete frame whose sum is not 0 arrives and is discarded (R194). -/
def execHostFrameDiscard (dt : Nat) (s : State) : Host.Outcome State Fault Refusal :=
  if s.listening then (s.elapse dt).seekHost.conclude else (s.elapse dt).conclude

/-- More than 50 ms without a next byte (R194). -/
def execHostFrameTimeout (dt : Nat) (s : State) : Host.Outcome State Fault Refusal :=
  match s.link.rx with
  | .inFrame _ => (s.elapseTo dt (s.link.rxAt + 50)).seekHost.conclude
  | .seeking | .answering => (s.elapse dt).conclude

/-- The last stop bit of the response is sent (R195). -/
def execResponseSent (dt : Nat) (s : State) : Host.Outcome State Fault Refusal :=
  match s.link.rx with
  | .answering => ((s.elapse dt).updLink fun l => { l with rx := .seeking, tx := [] }).conclude
  | .seeking | .inFrame _ => (s.elapse dt).conclude

/-- A byte or character error in SEEKING (R194). -/
def State.hostSeek (byte : Option Byte) (s : State) : State :=
  if byte = some 0x7E then s.updLink fun l => { l with rx := .inFrame [], rxAt := s.now } else s

/-- A complete frame, from its length byte on: checked, and taken as a request if it passes (R194, R195). -/
def State.hostFrame (bytes : List Byte) (s : State) : Host.Outcome State Fault Refusal :=
  if byteSum bytes % 256 = 0 then
    let code := bytes.getD 1 0
    let fields := (bytes.drop 2).dropLast
    match requestOf code.toNat with
    | some r => s.serve r fields
    | none => s.serveUnknown code
  else s.seekHost.conclude

/-- A byte joins the frame in progress (R194). -/
def State.hostFrameByte (bytes : List Byte) (s : State) : Host.Outcome State Fault Refusal :=
  let length := (bytes.getD 0 0).toNat
  if length < 1 ∨ 250 < length then s.seekHost.conclude
  else if bytes.length = length + 2 then s.hostFrame bytes
  else (s.updLink fun l => { l with rx := .inFrame bytes, rxAt := s.now }).conclude

def execHostByteReceived (dt : Nat) (byte : Option Byte) (s : State) :
    Host.Outcome State Fault Refusal :=
  let s := s.elapse dt
  match s.link.rx with
  | .answering => s.conclude
  | .seeking => (s.hostSeek byte).conclude
  | .inFrame bytes =>
    if s.link.rxAt + 50 < s.now then (s.seekHost.hostSeek byte).conclude
    else
      match byte with
      | none => s.seekHost.conclude
      | some b => s.hostFrameByte (bytes ++ [b])

/-- The lock-out timer runs out (R197). -/
def execLockOutExpiry (dt : Nat) (s : State) : Host.Outcome State Fault Refusal :=
  match s.link.lockUntil with
  | some t => ((s.elapseTo dt t).updLink fun l => { l with lockUntil := none }).conclude
  | none => (s.elapse dt).conclude

/-! ### One meaning for each request -/

def execLookup (dt : Nat) (fields : List Byte) (s : State) : Host.Outcome State Fault Refusal :=
  s.takeRequest dt .lookup fields

def execLookupNext (dt : Nat) (fields : List Byte) (s : State) : Host.Outcome State Fault Refusal :=
  s.takeRequest dt .lookupNext fields

def execReadStation (dt : Nat) (fields : List Byte) (s : State) : Host.Outcome State Fault Refusal :=
  s.takeRequest dt .readStation fields

def execReadTransition (dt : Nat) (fields : List Byte) (s : State) :
    Host.Outcome State Fault Refusal :=
  s.takeRequest dt .readTransition fields

def execReadContactor (dt : Nat) (fields : List Byte) (s : State) :
    Host.Outcome State Fault Refusal :=
  s.takeRequest dt .readContactor fields

def execReadReadings (dt : Nat) (fields : List Byte) (s : State) : Host.Outcome State Fault Refusal :=
  s.takeRequest dt .readReadings fields

def execReadClock (dt : Nat) (fields : List Byte) (s : State) : Host.Outcome State Fault Refusal :=
  s.takeRequest dt .readClock fields

def execReadStore (dt : Nat) (fields : List Byte) (s : State) : Host.Outcome State Fault Refusal :=
  s.takeRequest dt .readStore fields

def execReadHolds (dt : Nat) (fields : List Byte) (s : State) : Host.Outcome State Fault Refusal :=
  s.takeRequest dt .readHolds fields

def execStage (dt : Nat) (fields : List Byte) (s : State) : Host.Outcome State Fault Refusal :=
  s.takeRequest dt .stage fields

def execAmend (dt : Nat) (fields : List Byte) (s : State) : Host.Outcome State Fault Refusal :=
  s.takeRequest dt .amend fields

def execRetire (dt : Nat) (fields : List Byte) (s : State) : Host.Outcome State Fault Refusal :=
  s.takeRequest dt .retire fields

def execDiscard (dt : Nat) (fields : List Byte) (s : State) : Host.Outcome State Fault Refusal :=
  s.takeRequest dt .discard fields

def execDiscardAll (dt : Nat) (fields : List Byte) (s : State) : Host.Outcome State Fault Refusal :=
  s.takeRequest dt .discardAll fields

def execCommit (dt : Nat) (fields : List Byte) (s : State) : Host.Outcome State Fault Refusal :=
  s.takeRequest dt .commit fields

def execSetClock (dt : Nat) (fields : List Byte) (s : State) : Host.Outcome State Fault Refusal :=
  s.takeRequest dt .setClock fields

def execResetCounters (dt : Nat) (fields : List Byte) (s : State) :
    Host.Outcome State Fault Refusal :=
  s.takeRequest dt .resetCounters fields

def execClearContactorFault (dt : Nat) (fields : List Byte) (s : State) :
    Host.Outcome State Fault Refusal :=
  s.takeRequest dt .clearContactorFault fields

def execTransition (dt : Nat) (fields : List Byte) (s : State) : Host.Outcome State Fault Refusal :=
  s.takeRequest dt .transition fields

def execAbort (dt : Nat) (fields : List Byte) (s : State) : Host.Outcome State Fault Refusal :=
  s.takeRequest dt .abort fields

def execContinue (dt : Nat) (fields : List Byte) (s : State) : Host.Outcome State Fault Refusal :=
  s.takeRequest dt .continueHeld fields

def execSetHold (dt : Nat) (fields : List Byte) (s : State) : Host.Outcome State Fault Refusal :=
  s.takeRequest dt .setHold fields

def execClearHold (dt : Nat) (fields : List Byte) (s : State) : Host.Outcome State Fault Refusal :=
  s.takeRequest dt .clearHold fields

def execCarrierHold (dt : Nat) (fields : List Byte) (s : State) : Host.Outcome State Fault Refusal :=
  s.takeRequest dt .carrierHold fields

def execCarrierRelease (dt : Nat) (fields : List Byte) (s : State) :
    Host.Outcome State Fault Refusal :=
  s.takeRequest dt .carrierRelease fields

def execManualMove (dt : Nat) (fields : List Byte) (s : State) : Host.Outcome State Fault Refusal :=
  s.takeRequest dt .manualMove fields

def execSuspendSchedule (dt : Nat) (fields : List Byte) (s : State) :
    Host.Outcome State Fault Refusal :=
  s.takeRequest dt .suspendSchedule fields

def execResumeSchedule (dt : Nat) (fields : List Byte) (s : State) :
    Host.Outcome State Fault Refusal :=
  s.takeRequest dt .resumeSchedule fields

def execSaveCounters (dt : Nat) (fields : List Byte) (s : State) : Host.Outcome State Fault Refusal :=
  s.takeRequest dt .saveCounters fields

def execPresentCode (dt : Nat) (fields : List Byte) (s : State) : Host.Outcome State Fault Refusal :=
  s.takeRequest dt .presentCode fields

def execRevoke (dt : Nat) (fields : List Byte) (s : State) : Host.Outcome State Fault Refusal :=
  s.takeRequest dt .revoke fields

def execReadAttention (dt : Nat) (fields : List Byte) (s : State) :
    Host.Outcome State Fault Refusal :=
  s.takeRequest dt .readAttention fields

def execClearAttention (dt : Nat) (fields : List Byte) (s : State) :
    Host.Outcome State Fault Refusal :=
  s.takeRequest dt .clearAttention fields

def execMaskAttention (dt : Nat) (fields : List Byte) (s : State) :
    Host.Outcome State Fault Refusal :=
  s.takeRequest dt .maskAttention fields

end Sys2Proof.Machine
end

