-- ==== Sys2Proof/Machine/Dispatch.lean ====
section
/-! DEFINITION. The effect of each command on everything but the queue: one arm per command. -/

namespace Sys2Proof.Machine

def exec (i : Instr) (s : State) : Host.Outcome State Fault Refusal :=
  match i with
  | .powerOnReset dt vkeep lbr => Sys2Proof.Machine.execPowerOnReset dt vkeep lbr s
  | .externalReset dt lbr => Sys2Proof.Machine.execExternalReset dt lbr s
  | .storeStartupEnd dt => Sys2Proof.Machine.execStoreStartupEnd dt s
  | .feedbackScan dt contacts order => Sys2Proof.Machine.execFeedbackScan dt contacts order s
  | .carrierChangeAccepted dt stn on => Sys2Proof.Machine.execCarrierChangeAccepted dt stn on s
  | .coilDriveEnd dt c => Sys2Proof.Machine.execCoilDriveEnd dt c s
  | .travelLimitRetry dt c => Sys2Proof.Machine.execTravelLimitRetry dt c s
  | .travelLimitStuck dt c => Sys2Proof.Machine.execTravelLimitStuck dt c s
  | .carrierOffWaitExpiry dt stn => Sys2Proof.Machine.execCarrierOffWaitExpiry dt stn s
  | .holdLimitExpiry dt stn => Sys2Proof.Machine.execHoldLimitExpiry dt stn s
  | .breachWaitExpiry dt stn => Sys2Proof.Machine.execBreachWaitExpiry dt stn s
  | .settleExpiry dt stn => Sys2Proof.Machine.execSettleExpiry dt stn s
  | .verifyTimeout dt stn => Sys2Proof.Machine.execVerifyTimeout dt stn s
  | .monitorFrame dt frame => Sys2Proof.Machine.execMonitorFrame dt frame s
  | .monitorFrameGap dt => Sys2Proof.Machine.execMonitorFrameGap dt s
  | .silenceExpiry dt stn tower => Sys2Proof.Machine.execSilenceExpiry dt stn tower s
  | .trefPulse dt => Sys2Proof.Machine.execTrefPulse dt s
  | .trefMissingPulse dt => Sys2Proof.Machine.execTrefMissingPulse dt s
  | .trefLost dt => Sys2Proof.Machine.execTrefLost dt s
  | .internalBoundary dt => Sys2Proof.Machine.execInternalBoundary dt s
  | .clockSourceAbsentAtStart dt => Sys2Proof.Machine.execClockSourceAbsentAtStart dt s
  | .segmentWriteDone dt => Sys2Proof.Machine.execSegmentWriteDone dt s
  | .markerWriteDone dt => Sys2Proof.Machine.execMarkerWriteDone dt s
  | .writeFault dt step => Sys2Proof.Machine.execWriteFault dt step s
  | .hostFrameDiscard dt => Sys2Proof.Machine.execHostFrameDiscard dt s
  | .hostFrameTimeout dt => Sys2Proof.Machine.execHostFrameTimeout dt s
  | .unknownRequest dt code fields => Sys2Proof.Machine.execUnknownRequest dt code fields s
  | .responseSent dt => Sys2Proof.Machine.execResponseSent dt s
  | .lockOutExpiry dt => Sys2Proof.Machine.execLockOutExpiry dt s
  | .lookup dt fields => Sys2Proof.Machine.execLookup dt fields s
  | .lookupNext dt fields => Sys2Proof.Machine.execLookupNext dt fields s
  | .readStation dt fields => Sys2Proof.Machine.execReadStation dt fields s
  | .readTransition dt fields => Sys2Proof.Machine.execReadTransition dt fields s
  | .readContactor dt fields => Sys2Proof.Machine.execReadContactor dt fields s
  | .readReadings dt fields => Sys2Proof.Machine.execReadReadings dt fields s
  | .readClock dt fields => Sys2Proof.Machine.execReadClock dt fields s
  | .readStore dt fields => Sys2Proof.Machine.execReadStore dt fields s
  | .readHolds dt fields => Sys2Proof.Machine.execReadHolds dt fields s
  | .stage dt fields => Sys2Proof.Machine.execStage dt fields s
  | .amend dt fields => Sys2Proof.Machine.execAmend dt fields s
  | .retire dt fields => Sys2Proof.Machine.execRetire dt fields s
  | .discard dt fields => Sys2Proof.Machine.execDiscard dt fields s
  | .discardAll dt fields => Sys2Proof.Machine.execDiscardAll dt fields s
  | .commit dt fields => Sys2Proof.Machine.execCommit dt fields s
  | .setClock dt fields => Sys2Proof.Machine.execSetClock dt fields s
  | .resetCounters dt fields => Sys2Proof.Machine.execResetCounters dt fields s
  | .clearContactorFault dt fields => Sys2Proof.Machine.execClearContactorFault dt fields s
  | .transition dt fields => Sys2Proof.Machine.execTransition dt fields s
  | .abort dt fields => Sys2Proof.Machine.execAbort dt fields s
  | .continueHeld dt fields => Sys2Proof.Machine.execContinue dt fields s
  | .setHold dt fields => Sys2Proof.Machine.execSetHold dt fields s
  | .clearHold dt fields => Sys2Proof.Machine.execClearHold dt fields s
  | .carrierHold dt fields => Sys2Proof.Machine.execCarrierHold dt fields s
  | .carrierRelease dt fields => Sys2Proof.Machine.execCarrierRelease dt fields s
  | .manualMove dt fields => Sys2Proof.Machine.execManualMove dt fields s
  | .suspendSchedule dt fields => Sys2Proof.Machine.execSuspendSchedule dt fields s
  | .resumeSchedule dt fields => Sys2Proof.Machine.execResumeSchedule dt fields s
  | .saveCounters dt fields => Sys2Proof.Machine.execSaveCounters dt fields s
  | .presentCode dt fields => Sys2Proof.Machine.execPresentCode dt fields s
  | .revoke dt fields => Sys2Proof.Machine.execRevoke dt fields s
  | .readAttention dt fields => Sys2Proof.Machine.execReadAttention dt fields s
  | .clearAttention dt fields => Sys2Proof.Machine.execClearAttention dt fields s
  | .maskAttention dt fields => Sys2Proof.Machine.execMaskAttention dt fields s
  | .monitorByteReceived dt byte => Sys2Proof.Machine.execMonitorByteReceived dt byte s
  | .hostByteReceived dt byte => Sys2Proof.Machine.execHostByteReceived dt byte s

end Sys2Proof.Machine
end

