-- ==== Sys2Proof/Safety.lean ====
section
/-! DEFINITION. What every step is to keep: the laws of the station records, the attention flags, the staging
queue and the output pins. What statements say of a command's next state: endings and closings, requests handed over
or taken, stage starts and RESTORE, arrivals, the store's banks and tables, and the staging checks. And the commands
and conditions that statements about requests speak of. -/

namespace Sys2Proof.Machine

/-! ### Laws -/

/-- The mute claim that an array state stands together with: FAULT for MIXED and FAULTED, START-UP for UNSET
(R47, R43). -/
def ArrayState.backed (m : MuteClaims) : ArrayState → Bool
  | .mixed | .faulted => m.fault
  | .unset => m.startUp
  | .inPattern | .moving => true

/-- A station record whose array state, and whose prior state, is backed by its mute claims. -/
def StationRecord.lawful (r : StationRecord) : Bool :=
  r.arrayState.backed r.claims &&
  match r.prior with
  | some p => p.1.backed r.claims
  | none => true

def State.stationsLawful (s : State) : Prop := ∀ st, (s.station st).lawful = true

/-- An attention flag is latched exactly while it holds a detail, which is one of its own; its count is 0
exactly while it is not latched and at most 255 (section 11.4, R199). -/
def Flag.lawful (n : Fin 16) (f : Flag) : Bool :=
  match f.detail with
  | some d => f.latched && decide (d.flag = n) && decide (1 ≤ f.count) && decide (f.count ≤ 255)
  | none => !f.latched && decide (f.count = 0)

def State.attentionLawful (s : State) : Prop := ∀ n : Fin 16, (s.attention[n]).lawful n = true

/-- At most 16 entries, no two for one record (R159). -/
def State.stagingLawful (s : State) : Prop :=
  s.staging.length ≤ 16 ∧ (s.staging.map StagedEntry.id).Nodup

/-- Each station is supervised exactly when the terms of R129 hold. -/
def State.supervisionFollows (s : State) : Prop :=
  ∀ st, s.monitor.supervised.get st = s.supervisionApplies st

/-- No entry waits in the queue that could be granted: the concurrency is used up, or the path of every entry
is unsafe (R89, R90). -/
def State.grantsDone (s : State) : Prop :=
  s.tables.site.concurrency ≤ s.arbiter.pulses.length ∨ ∀ q ∈ s.arbiter.queue, s.entrySafe q = false

/-- What the end of an event leaves: supervision follows its terms, and nothing that could be granted waits. -/
def State.settled (s : State) : Prop := s.supervisionFollows ∧ s.grantsDone

/-- No job waits while none runs (R183). -/
def State.jobsLawful (s : State) : Prop := s.store.running = none → s.store.waiting = []

/-- No unit waits for claims and no request is pending: nothing that a release or an ending could set going. -/
def State.nothingWaits (s : State) : Prop :=
  ∀ st, (s.unit st).waiting = false ∧ (s.station st).request = none

/-- Every output pin shows what drives it (R44, R45, R91, R195, R200). -/
def State.pinsFollow (s : State) : Prop := s.pins = s.pinsNow

/-! ### Laws of transitions and pulses -/

/-- Every contactor the pattern lists is configured with a path that includes the station. -/
def Site.carries (x : Site) (st : Station) (p : Pattern) : Prop :=
  ∀ g ∈ p.stages, ∀ y ∈ g, ∃ path, x.config[y.contactor] = some path ∧ path.has st = true

/-- Patterns agree with the configuration in effect (R4, R7, R34, R170). Every row has the path that the working site
record gives it, and every ACTIVE pattern lists only contactors whose path includes its station. So it will be of the
tables that a running commit brings, whose site record, if it carries one, is in its set. Until start-up has ended
there is no pattern and no commit. -/
def State.patternsCarried (s : State) : Prop :=
  (∀ c : Fin 48, (s.row c).path = s.tables.site.config[c]) ∧
  (∀ slot v, s.pattern slot = some v → s.tables.site.carries v.pattern.station v.pattern) ∧
  (∀ run, s.commit = some run →
    (∀ (slot : Fin 32) (v : Versioned), (s.afterTables run.version).patterns[slot] = some v →
      (s.afterTables run.version).site.carries v.pattern.station v.pattern) ∧
    ∀ x form, StagedEntry.site x form ∈ s.staging → s.siteCommitRunning = true) ∧
  (s.started = false → s.commit = none ∧ ∀ slot, s.pattern slot = none)

/-- The entries of the pulses queued and in progress. -/
def State.entries (s : State) : List QueueEntry := s.arbiter.queue ++ s.arbiter.pulses.map Pulse.entry

/-- A contactor has at most one pulse queued or in progress, and is then claimed by that pulse's owner (R15, R16,
R88). -/
def State.pulsesClaimed (s : State) : Prop :=
  (s.entries.map QueueEntry.contactor).Nodup ∧ ∀ q ∈ s.entries, (s.row q.contactor).claim = q.owner.claim

/-- What holds of station `st` and its transition unit. A MOVING station's unit is in DRIVING or HELD and has submitted
its first pulse, and the prior state is recorded (R47, R48). From MUTING to its ending the unit holds its TRANSITION
claim on every station of its muted set, its own among them (R43, R66). In CLAIMING its target lists only contactors
whose path includes the station, start-up has ended and no site-record commit runs (R60, R172). Only a unit in
CLAIMING waits (R64). Its pulses are those of outstanding contactors, which only a unit in DRIVING with nothing
deferred, or a closing one, has (R73, R112, R117). -/
def State.unitLawful (s : State) (st : Station) : Prop :=
  let u := s.unit st
  let r := s.station st
  (r.arrayState = .moving → u.phase.drives = true ∧ u.submitted = true ∧ r.prior ≠ none) ∧
  (∀ p, r.prior = some p → p.1 ≠ .moving) ∧
  (u.phase = .muting ∨ u.phase.drives = true → u.muted.get st = true ∧
    ∀ w, u.muted.get w = true → (s.station w).claims.transition.get st = true) ∧
  (u.phase = .claiming → s.started = true ∧ s.siteCommitRunning = false ∧
    ∀ x, u.target = some x → ∀ c ∈ x.pattern.listed, ∃ path, (s.row c).path = some path ∧ path.has st = true) ∧
  (u.waiting = true → u.phase = .claiming) ∧
  (∀ q ∈ s.entries, q.owner = .tu st → q.contactor ∈ u.outstanding) ∧
  (u.outstanding ≠ [] → u.phase.drives = true ∧
    (u.closing = none → u.phase = .driving ∧ u.deferred = none))

def State.transitionsLawful (s : State) : Prop :=
  s.patternsCarried ∧ s.pulsesClaimed ∧ ∀ st, s.unitLawful st

/-- The pulse is in progress in `s` too: a grant time, a travel limit and an entry stand, and a drive can only end. -/
def State.runsOn (s : State) (p : Pulse) : Prop :=
  ∃ q ∈ s.arbiter.pulses, q.entry = p.entry ∧ q.granted = p.granted ∧ q.travelEnd = p.travelEnd ∧
    (p.driveEnd = q.driveEnd ∨ p.driveEnd = none)

/-- The pulse has been granted as the machine stands in `t` (R89, R91): its drive and its travel limit run from now,
the contactor's commanded position is its target and the hot mark is empty; every station of the contactor's path
shows carrier off; and no more pulses are in progress than the coil concurrency allows. -/
def State.grantedNow (t : State) (p : Pulse) : Prop :=
  p.granted = t.now ∧ p.driveEnd = some (t.now + t.tables.site.coilPulse) ∧
  p.travelEnd = t.now + t.tables.site.travelLimit ∧
  (t.row p.entry.contactor).commanded = some p.entry.target ∧
  (t.row p.entry.contactor).hotMark = ⟨false, false⟩ ∧
  t.arbiter.pulses.length ≤ t.tables.site.concurrency ∧
  ∃ path, (t.row p.entry.contactor).path = some path ∧
    ∀ w, path.has w = true → (t.station w).carrier = false

/-! ### What statements compare -/

/-- The values from reset of R6, R40, R59, R87, R102, R136, R159, R177, R194 and R199, read from the state a reset
leaves; that of a contactor's sensed position, before the reset scan, is the model's (log entry 7). -/
def State.holdsResetValues (t : State) : Prop :=
  (∀ c, t.row c =
    { path := none, sensed := .between, candidate := none, commanded := none, claim := .none,
      releaseDue := false, condition := .normal, lastTravel := none, operations := 0, hotMoves := 0,
      maintenance := false, hotMark := ⟨false, false⟩ }) ∧
  (∀ st, t.station st =
    { arrayState := .unset, faultReason := none, prior := none, inService := none, revised := false,
      claims := { startUp := true, transition := ⟨false, false⟩, hostHold := false, fault := false },
      powerStep := 1, carrier := true, request := none, lastOutcome := none, saved := none,
      suspended := false, governing := none }) ∧
  (∀ st, t.unit st =
    { phase := .idle, target := none, priority := none, source := none, waiting := false, moving := [],
      muted := ⟨false, false⟩, stage := none, moved := [], outstanding := [], heldBy := none,
      breach := none, timer := none, closing := none, deferred := none, marks := [],
      submitted := false, drove := false }) ∧
  t.arbiter.queue = [] ∧ t.arbiter.pulses = [] ∧ t.manual = none ∧
  (∀ i : Fin 4, t.holds[i] = none) ∧ t.staging = [] ∧ t.commit = none ∧ t.started = false ∧
  t.monitor.rx = none ∧ t.monitor.discards = 0 ∧
  (∀ st tower, t.cell st tower =
    { ratio := none, phase := none, valid := false, arrival := none, run := 0,
      silence := .notWatched }) ∧
  (∀ st, t.monitor.failures.get st = none ∧ t.monitor.supervised.get st = false) ∧
  (∀ i : Fin 64, t.lastFired[i] = none) ∧
  (∀ n : Fin 16, t.attention[n] = { latched := false, enable := true, detail := none, count := 0 }) ∧
  t.link.rx = .seeking ∧ t.link.tx = [] ∧ t.link.lockUntil = none ∧ t.link.cursor = none ∧
  t.store.running = none ∧ t.store.waiting = [] ∧
  t.pins = { tprm := ⟨false, false⟩, pstp := ⟨1, 1⟩, attn := false, ldir := false, coils := [] }

/-- The fields of a row that only scans, confirmations and expiries, requests and configurations change, not
claims, grants or transitions. -/
def Row.sensedSide (r : Row) :
    Option Path × Sensed × Option Sensed × Condition × Option Nat × Nat × Nat × Bool :=
  (r.path, r.sensed, r.candidate, r.condition, r.lastTravel, r.operations, r.hotMoves, r.maintenance)

/-- The fields of a station record that no transition, fault or manual move changes: carrier, schedule
suspended, governing entry, HOST-HOLD. -/
def StationRecord.outside (r : StationRecord) : Bool × Bool × Option (Fin 64) × Bool :=
  (r.carrier, r.suspended, r.governing, r.claims.hostHold)

/-- The records that no transition, pulse, fault or store job changes are as they were. -/
def State.sameRecords (s t : State) : Prop :=
  t.started = s.started ∧ t.tables = s.tables ∧ t.staging = s.staging ∧ t.holds = s.holds ∧
  t.lastFired = s.lastFired ∧ t.scan = s.scan ∧ t.pending = s.pending ∧
  (∀ st, (t.station st).suspended = (s.station st).suspended ∧
    (t.station st).governing = (s.station st).governing)

/-- The sensed side of every row is as it was. -/
def State.sameSensed (s t : State) : Prop := ∀ c, (t.row c).sensedSide = (s.row c).sensedSide

/-! ### Grants -/

/-- The pulses granted from `s` to `t`, where none is finished: a grant puts its pulse behind those in progress. -/
def State.newPulses (s t : State) : List Pulse := t.arbiter.pulses.drop s.arbiter.pulses.length

/-- A pulse of the unit has been granted from `s` to `t`. -/
def State.grantedTo (s t : State) (u : Station) : Bool :=
  (s.newPulses t).any fun p => decide (p.entry.owner = .tu u)

/-- The unit is as it was, but that a pulse granted to it counts for its ending (R118). -/
def State.sameUnit (s t : State) (u : Station) : Prop :=
  t.unit u = { s.unit u with drove := (s.unit u).drove || s.grantedTo t u }

/-- The arbiter has granted lawfully (R89, R91). The pulses in progress run on, those granted come behind them, and
with one granted the coil concurrency is kept. A pulse granted runs its drive and its travel limit from now, with an
empty hot mark, on a path whose stations all show carrier off and permit withdrawn; commanded positions become the
targets of what is granted and are otherwise as they were. -/
def State.grantsLawfully (s t : State) : Prop :=
  t.arbiter.pulses = s.arbiter.pulses ++ s.newPulses t ∧
  (s.newPulses t ≠ [] → t.arbiter.pulses.length ≤ s.tables.site.concurrency) ∧
  (∀ p ∈ s.newPulses t,
    p.granted = t.now ∧ p.driveEnd = some (t.now + s.tables.site.coilPulse) ∧
    p.travelEnd = t.now + s.tables.site.travelLimit ∧
    (t.row p.entry.contactor).hotMark = ⟨false, false⟩ ∧
    ∃ path, (s.row p.entry.contactor).path = some path ∧
      ∀ w, path.has w = true → (t.station w).carrier = false ∧ (t.station w).permit = false) ∧
  (((s.newPulses t).map fun p => p.entry.contactor).Nodup →
    ∀ p ∈ s.newPulses t, (t.row p.entry.contactor).commanded = some p.entry.target) ∧
  (∀ c, (∀ p ∈ s.newPulses t, p.entry.contactor ≠ c) → (t.row c).commanded = (s.row c).commanded)

/-! ### Endings and requests -/

/-- Unit `st`'s transition for `q` has ended: IDLE, its TRANSITION claims gone, its claims on contactors without a
pulse released and no others, the outcome recorded and its flag latched, the other unit as it was but for a
pulse granted to it (R82, R55, R118). -/
def State.ended (s t : State) (st : Station) (q : Request) (outcome : Outcome) (why : Option WhyEnded) :
    Prop :=
  t.unit st = { TransitionRecord.idle with drove := s.grantedTo t st } ∧ s.sameUnit t st.other ∧
  (∀ u, (s.unit st).muted.get u = true → (t.station u).claims.transition.get st = false) ∧
  (∀ c, (s.row c).claim = .tu st → s.inMotion c = false → (t.row c).claim = .none) ∧
  (∀ c, (s.row c).claim ≠ .tu st → (s.row c).releaseDue = false → (t.row c).claim = (s.row c).claim) ∧
  (t.station st).lastOutcome = some
    { outcome := outcome, why := why, slot := q.slot, source := q.source, priority := q.priority } ∧
  t.attention[(outcomeDetail st q.slot outcome why).flag].latched = true ∧
  s.sameRecords t

/-- What an ending makes of the station of the transition (R48; section 6.5). FAILED_NO_MOVE: a MOVING station
returns to its prior state and reason, another stays as it was. FAILED_MIXED: the snapshot is absent and FAULT
is placed; a FAULTED station keeps its reason, another is MIXED with the ending's reason (log entry 15 for one
not MOVING). -/
def State.arrayEnded (s t : State) (st : Station) (outcome : Outcome) (why : Option WhyEnded) : Prop :=
  (outcome = .failedNoMove →
    (t.station st).inService = (s.station st).inService ∧ (t.station st).revised = (s.station st).revised ∧
    (t.station st).claims.fault = (s.station st).claims.fault ∧
    (∀ state reason, (s.station st).arrayState = .moving → (s.station st).prior = some (state, reason) →
      (t.station st).arrayState = state ∧ (t.station st).faultReason = reason ∧
      (t.station st).prior = none) ∧
    ((s.station st).arrayState ≠ .moving →
      (t.station st).arrayState = (s.station st).arrayState ∧
      (t.station st).faultReason = (s.station st).faultReason)) ∧
  (outcome = .failedMixed →
    (t.station st).inService = none ∧ (t.station st).revised = false ∧
    (t.station st).claims.fault = true ∧ (t.station st).prior = none ∧
    ((s.station st).arrayState = .faulted →
      (t.station st).arrayState = .faulted ∧ (t.station st).faultReason = (s.station st).faultReason) ∧
    ((s.station st).arrayState ≠ .faulted → (t.station st).arrayState = .mixed ∧
      (t.station st).faultReason =
        match why.map WhyEnded.reason with
        | some .stuck => some .stuck
        | some .breach => some .breach
        | some .drift => some .drift
        | _ => none)) ∧
  (t.station st).powerStep = (s.station st).powerStep ∧ (t.station st).saved = (s.station st).saved

/-- A closing transition ends FAILED_NO_MOVE where nothing was driven or found moved and its cause is not STUCK, and
FAILED_MIXED otherwise (R118). -/
def TransitionRecord.closesAs (u : TransitionRecord) (cause : Cause) : Outcome :=
  if cause = .stuck ∨ u.drove = true ∨ u.moved ≠ [] then .failedMixed else .failedNoMove

/-- The reason a closing transition reports for its cause (R118). -/
def Cause.why : Cause → Option WhyEnded
  | .aborted => some ⟨.aborted, none⟩
  | .breach => some ⟨.breach, none⟩
  | .stuck => some ⟨.stuck, none⟩

/-- Unit `st` has started closing (R116, R97, R16, R67). Its queued pulses are withdrawn and their contactors
released, the releases of those in progress are recorded and the contactors without a pulse stay claimed (log
entry 13). Where no pulse of its own is in progress it ends at once (R118). -/
def State.startsClosing (s t : State) (st : Station) (cause : Cause) : Prop :=
  (∀ x ∈ t.arbiter.queue, x.owner ≠ .tu st) ∧
  (∀ c q, s.queuedOf c = some q → s.pulseOf c = none → q.owner = .tu st → (s.row c).claim = .tu st →
    (t.row c).claim = .none) ∧
  (∀ q, (s.unit st).request = some q → s.pulsesOf (.tu st) = [] →
    s.ended t st q ((s.unit st).closesAs cause) cause.why ∧
    ((∀ f, s.monitor.failures.get st = some f → f.running = false) →
      s.arrayEnded t st ((s.unit st).closesAs cause) cause.why)) ∧
  (s.pulsesOf (.tu st) ≠ [] →
    t.unit st = { s.unit st with
      closing := some cause, timer := none, breach := none, heldBy := none, deferred := none,
      outstanding := s.pulsesOf (.tu st) } ∧
    (∀ c ∈ s.pulsesOf (.tu st), (s.row c).claim = .tu st → s.queuedOf c = none →
      (t.row c).claim = .tu st ∧ (t.row c).releaseDue = true) ∧
    (∀ c, s.inMotion c = false → (t.row c).claim = (s.row c).claim) ∧ s.sameRecords t)

/-- A pending request has been handed to the unit (R54, R60): the unit carries it out with the pattern it
names as its target, or its transition has ended in the same event and is the station's last outcome. -/
def State.handedOver (s t : State) (st : Station) (r : Request) : Prop :=
  (t.station st).request = none ∧
  ((∃ v, s.pattern r.slot = some v ∧ (t.unit st).phase ≠ .idle ∧
      (t.unit st).target = some ⟨r.slot, v.version, v.pattern⟩ ∧
      (t.unit st).priority = some r.priority ∧ (t.unit st).source = some r.source) ∨
    ((t.unit st).phase = .idle ∧ ∃ o, (t.station st).lastOutcome = some o ∧ o.slot = r.slot ∧
      o.source = r.source ∧ o.priority = r.priority))

/-- A request that is not the host's has been taken by R52 and R53, the first row that applies deciding:
handed to an IDLE unit, absorbed, left waiting, waiting in place of one of no higher priority, or dropped with
REQUEST_DROPPED. -/
def State.requestTaken (s t : State) (st : Station) (r : Request) : Prop :=
  let fit : Prop := r.priority = .commanded ∨ (s.activeFor r.slot st = true ∧ s.retiring r.slot = false)
  let aims : Prop := (s.unit st).target.map Snapshot.slot = some r.slot ∧ r.priority ≠ .protective
  let asItWas : Prop := s.sameUnit t st
  let dropped : Prop := t.attention[(9 : Fin 16)].latched = true
  ((s.station st).request = none → (s.unit st).phase = .idle → s.siteCommitRunning = false →
    s.handedOver t st r) ∧
  ((s.station st).request = none → (s.unit st).phase ≠ .idle → aims →
    (t.station st).request = none ∧ asItWas) ∧
  ((s.station st).request = none →
    ((s.unit st).phase ≠ .idle ∧ ¬ aims) ∨ ((s.unit st).phase = .idle ∧ s.siteCommitRunning = true) →
    (fit → (t.station st).request = some r) ∧ (¬ fit → (t.station st).request = none ∧ dropped) ∧
    asItWas) ∧
  (∀ held, (s.station st).request = some held → held.priority.rank ≤ r.priority.rank →
    (fit → (t.station st).request = some r) ∧ (¬ fit → (t.station st).request = some held) ∧ dropped ∧
    asItWas) ∧
  (∀ held, (s.station st).request = some held → r.priority.rank < held.priority.rank →
    (t.station st).request = some held ∧ dropped ∧ asItWas)

/-- No request has been made for the station: its pending slot and its unit are as they were. -/
def State.requestless (s t : State) (st : Station) : Prop :=
  (t.station st).request = (s.station st).request ∧ s.sameUnit t st

/-! ### The choice of entries (R153) -/

/-- The entry is ENABLED, for the station, and its date range holds on the day. -/
def State.passedAnyTime (s : State) (st : Station) (day : Nat) (i : Fin 64) : Prop :=
  ∃ e, s.entry i = some e ∧ e.enabled = true ∧ e.station = st ∧ e.holdsOn day = true

/-- And its minute is at or before the minute. -/
def State.passed (s : State) (st : Station) (day minute : Nat) (i : Fin 64) : Prop :=
  s.passedAnyTime st day i ∧ ∃ e, s.entry i = some e ∧ e.minute ≤ minute

/-- Of two entries the first is chosen: of later minute, then of higher precedence, then of lower number. -/
def State.leads (s : State) (i j : Fin 64) : Prop :=
  ∀ x y, s.entry i = some x → s.entry j = some y →
    y.minute < x.minute ∨ (x.minute = y.minute ∧
      (y.precedence < x.precedence ∨ (x.precedence = y.precedence ∧ i ≤ j)))

/-! ### Stage starts and RESTORE -/

/-- The queue holds entries of higher priority first, and of equal priority the earlier arrival first (R86). -/
def queueOrdered (queue : List QueueEntry) : Prop :=
  queue.Pairwise fun a b =>
    b.priority.rank < a.priority.rank ∨ (a.priority.rank = b.priority.rank ∧ a.arrival < b.arrival)

/-- The arbiter has taken new entries and made its grant attempt: each new entry waits or is in progress, an
entry that has left the queue has been granted, and no pulse in progress is touched (R86, R88, R89, R91). -/
def State.takesEntries (s t : State) (fresh : List QueueEntry) : Prop :=
  (∀ q ∈ fresh, q ∈ t.arbiter.queue ∨ ∃ p ∈ t.arbiter.pulses, p.entry = q) ∧
  (∀ q ∈ s.arbiter.queue, q ∈ t.arbiter.queue ∨ ∃ p ∈ t.arbiter.pulses, p.entry.contactor = q.contactor) ∧
  (∀ q ∈ t.arbiter.queue, q ∈ s.arbiter.queue ∨ q ∈ fresh) ∧
  (∀ p ∈ s.arbiter.pulses, p ∈ t.arbiter.pulses) ∧ s.grantsLawfully t ∧
  (∀ p ∈ t.arbiter.pulses, p ∈ s.arbiter.pulses ∨
    ((p.entry ∈ s.arbiter.queue ∨ p.entry ∈ fresh) ∧ p.granted = t.now)) ∧
  (queueOrdered s.arbiter.queue → (∀ q ∈ s.arbiter.queue, q.arrival < s.arbiter.nextArrival) →
    queueOrdered t.arbiter.queue) ∧
  t.arbiter.nextArrival = s.arbiter.nextArrival + fresh.length

/-- The pulse requests a unit sends for a stage's subset: each contactor with its listed position, the unit as owner
and the transition's priority, in ascending number (R73, R86). -/
def State.submission (s : State) (st : Station) (x : Snapshot) (priority : Priority) (subset : List (Fin 48)) :
    List QueueEntry :=
  subset.zipIdx.filterMap fun c => (x.pattern.lists c.1).map fun p =>
    { contactor := c.1, target := p, owner := .tu st, priority := priority,
      arrival := s.arbiter.nextArrival + c.2, second := false }

/-- The stations that a stage start adds to the muted set: those in the path of a contactor of the subset that
was not in the moving set (R72). -/
def State.freshPaths (s : State) (st : Station) (subset : List (Fin 48)) : StationSet :=
  let joins (w : Station) : Bool := !(s.unit st).muted.get w && subset.any fun c =>
    !(s.unit st).moving.contains c && (s.row c).path.any fun p => p.has w
  ⟨joins .A, joins .B⟩

/-- Unit `st` has made the start of stage `k` with a subset that is not empty (R71 to R73, R106, R112). The
moving and muted sets take in the contactors that have drifted away and the stations of their paths, which are
muted, and whose carrier is a breach. It then stands at a matching hold point, defers the subset in a breach,
or submits it, the first submission making the station MOVING (R47, R48; log entry 16 for the fault reason
kept). -/
def State.takesStage (s t : State) (st : Station) (x : Snapshot) (k : Nat) (subset : List (Fin 48))
    (hold : Option (Fin 4)) : Prop :=
  let u := s.unit st
  let fresh := s.freshPaths st subset
  let breach := if s.allCarriersOff fresh then u.breach
    else some (u.breach.getD (t.now + 1000 * s.tables.site.carrierOffWait))
  let submits := hold.isNone && breach.isNone
  t.unit st = { u with
    stage := some k
    moving := contactorSet fun c => u.moving.contains c || subset.contains c
    muted := StationSet.union u.muted fresh
    breach := breach
    phase := if hold.isSome then .held else u.phase
    heldBy := if hold.isSome then hold else u.heldBy
    timer := if hold.isSome then some (t.now + 60000 * s.tables.site.holdLimit) else u.timer
    outstanding := if submits then subset else if hold.isSome then u.outstanding else []
    deferred := if submits then none else if hold.isSome then u.deferred else some subset
    submitted := u.submitted || submits
    drove := u.drove || s.grantedTo t st } ∧
  s.sameUnit t st.other ∧
  (∀ w, t.station w =
    let r := if fresh.get w then
        { s.station w with claims := { (s.station w).claims with
            transition := (s.station w).claims.transition.set st true } }
      else s.station w
    if w = st ∧ submits = true ∧ u.submitted = false then
      { r with arrayState := .moving, prior := some (r.arrayState, r.faultReason) }
    else r) ∧
  (∀ c, (t.row c).claim = (s.row c).claim) ∧ s.sameRecords t ∧
  (hold.isSome = true → t.attention[(10 : Fin 16)].latched = true) ∧
  (∀ priority, u.priority = some priority →
    (∀ c ∈ subset, (s.row c).claim = .tu st ∧ s.inMotion c = false) →
    s.takesEntries t (if submits then s.submission st x priority subset else []))

/-- Unit `st` has put its target in service: RESTORE (R77 to R79, R56, R38). The station stands IN_PATTERN in
the target at its power step, START-UP and FAULT gone; the TRANSITION claims of the muted set and the
contactor claims are gone, the open failure is closed (R134), the saved in-service and an OPS_SAVE follow
where something moved, and the unit settles (log entry 14 for the fields it clears). -/
def State.restored (s t : State) (st : Station) (x : Snapshot) : Prop :=
  let u := s.unit st
  t.unit st = { u with
    phase := .settling, timer := some (t.now + 1000 * x.pattern.settle), muted := ⟨false, false⟩,
    stage := none, outstanding := [], heldBy := none, breach := none, deferred := none, waiting := false,
    drove := u.drove || s.grantedTo t st } ∧
  s.sameUnit t st.other ∧
  (∀ w, t.station w =
    let claims := if u.muted.get w then
        { (s.station w).claims with transition := (s.station w).claims.transition.set st false }
      else (s.station w).claims
    if w = st then
      { s.station w with
        arrayState := .inPattern, faultReason := none, prior := none, powerStep := x.pattern.powerStep
        claims := { claims with startUp := false, fault := false }
        inService := some ⟨x, decide (u.priority = some .protective),
          if x.pattern.windows.isEmpty then .notMonitored else .no⟩
        revised := (s.pattern x.slot).any fun v => v.version ≠ x.version
        saved := if u.moved = [] then (s.station w).saved else some (x.slot, x.version) }
    else { s.station w with claims := claims }) ∧
  (∀ c, (s.row c).claim = .tu st → s.inMotion c = false → (t.row c).claim = .none) ∧
  (∀ c, (s.row c).claim ≠ .tu st → (t.row c).claim = (s.row c).claim) ∧
  t.monitor.failures.get st = none ∧ s.sameRecords t ∧
  (u.moved = [] → t.store = s.store) ∧
  (u.moved ≠ [] →
    (s.store.running = none → s.jobsLawful → s.store.highest < 4294967295 →
      ∃ job, t.store.running = some job ∧ job.kind = .opsSave ∧ Segment.ops ∈ job.list ∧
        job.ops = some t.opsData) ∧
    (s.store.running ≠ none → ∃ w ∈ t.store.waiting, w.kind = .opsSave))

/-- Unit `st` has taken the RESTORE check (R76): RESTORE where every listed contactor stands at its position, and
otherwise the ending with reason DRIFT and the lowest-numbered contactor astray. -/
def State.takesRestore (s t : State) (st : Station) (x : Snapshot) : Prop :=
  ((∀ c p, x.pattern.lists c = some p → s.standsAt c p = true) → s.restored t st x) ∧
  (∀ c p q, x.pattern.lists c = some p → s.standsAt c p = false →
    (∀ d r, d < c → x.pattern.lists d = some r → s.standsAt d r = true) → (s.unit st).request = some q →
    (∀ f, s.monitor.failures.get st = some f → f.running = false) →
    s.ended t st q (if (s.unit st).moved = [] then .failedNoMove else .failedMixed) (some ⟨.drift, some c⟩) ∧
    s.arrayEnded t st (if (s.unit st).moved = [] then .failedNoMove else .failedMixed)
      (some ⟨.drift, some c⟩))

/-- Unit `st` has gone through the stage starts from stage `first` on (R71, R74): it passes over the stages whose
subset is empty, starts the first other one, and takes RESTORE where there is none. The hold test is left out for a
PROTECTIVE transition and, where `tested`, for stage `first` (R106, R108). -/
def State.stageStarts (s t : State) (st : Station) (x : Snapshot) (first : Nat) (tested : Bool) : Prop :=
  (∀ k stage, first ≤ k + 1 → x.pattern.stages[k]? = some stage → s.stageSubset stage ≠ [] →
    (∀ j g, first ≤ j + 1 → j < k → x.pattern.stages[j]? = some g → s.stageSubset g = []) →
    s.takesStage t st x (k + 1) (s.stageSubset stage)
      (if (tested = true ∧ k + 1 = first) ∨ (s.unit st).priority = some .protective then none
       else s.holdFor st (k + 1) (s.stageSubset stage))) ∧
  ((∀ j g, first ≤ j + 1 → x.pattern.stages[j]? = some g → s.stageSubset g = []) → s.takesRestore t st x)

/-- Unit `u`, which awaits carrier off in MUTING or in a breach wait, has taken a carrier change to off (R69, R112,
R113). While a station of its muted set shows carrier it goes on waiting. Otherwise a unit in MUTING enters DRIVING and
starts stage 1; one in a breach wait ends the wait, and where it deferred a subset submits the contactors still away
from their positions, or, with none away, starts the next stage. -/
def State.takesCarrierOff (s t : State) (u : Station) (x : Snapshot) : Prop :=
  let on : Prop := ∃ w, (s.unit u).muted.get w = true ∧ (s.station w).carrier = true
  (on → s.sameUnit t u) ∧
  (¬ on →
    ((s.unit u).phase = .muting →
      (s.updUnit u fun y => { y with phase := .driving, timer := none }).stageStarts t u x 1 false) ∧
    ((s.unit u).phase = .held ∨ ((s.unit u).phase = .driving ∧ (s.unit u).deferred = none) →
      t.unit u = { s.unit u with breach := none, drove := (s.unit u).drove || s.grantedTo t u }) ∧
    (∀ subset left n, (s.unit u).phase = .driving → (s.unit u).deferred = some subset →
      (s.unit u).stage = some n →
      left = subset.filter (fun c => (x.pattern.lists c).all fun p => !s.standsAt c p) →
      (left = [] →
        (s.updUnit u fun y => { y with breach := none, deferred := none }).stageStarts t u x (n + 1) false) ∧
      (left ≠ [] →
        t.unit u = { s.unit u with
          breach := none, deferred := none, outstanding := left, submitted := true,
          drove := (s.unit u).drove || s.grantedTo t u } ∧
        t.station u = (if (s.unit u).submitted then s.station u
          else { s.station u with
            arrayState := .moving
            prior := some ((s.station u).arrayState, (s.station u).faultReason) }) ∧
        (∀ priority, (s.unit u).priority = some priority →
          (∀ c ∈ left, (s.row c).claim = .tu u ∧ s.inMotion c = false ∧
            (x.pattern.lists c).isSome = true) → left.Nodup →
          s.takesEntries t (s.submission u x priority left)) ∧
        t.attention = s.attention ∧ s.sameRecords t)))

/-! ### Checks at the start and at a failure -/

/-- The checks of a transition of `st` to pattern `p` answer `why` (R62, R63). The compatibility check names the
lowest contactor that `p` lists at a position other than the other station's pattern in service does, of those whose
path includes the other station; then the contactor-fault check the lowest configured contactor of the station's path
that is STUCK or CONFLICT, or DRIFTED and not listed by the target (log entry 35). -/
def State.checksAnswer (s : State) (st : Station) (p : Pattern) (why : Option WhyEnded) : Prop :=
  let clash (c : Fin 48) : Prop := ∃ path v pos held, (s.row c).path = some path ∧ path.has st.other = true ∧
    (s.station st.other).inService = some v ∧ v.snap.pattern.lists c = some held ∧
    p.lists c = some pos ∧ pos ≠ held
  let bars (c : Fin 48) : Prop := ∃ path, (s.row c).path = some path ∧ path.has st = true ∧
    ((s.row c).condition = .stuck ∨ (s.row c).condition = .conflict ∨
      ((s.row c).condition = .drifted ∧ p.lists c = none))
  (∀ c, clash c → (∀ d, d < c → ¬ clash d) → why = some ⟨.incompatible, some c⟩) ∧
  ((∀ c, ¬ clash c) →
    (∀ c, bars c → (∀ d, d < c → ¬ bars d) → why = some ⟨.contactorFault, some c⟩) ∧
    ((∀ c, ¬ bars c) → why = none))

/-- Unit `st` has been granted the claims of its target, whose contactors `moving` are astray, and has muted the
stations of their paths; the carriers are off, and stage 1 is about to start (R66, R68, R71). `s` is the state before
the start. -/
def State.mutedForDriving (s : State) (st : Station) (x : Snapshot) (priority : Priority) (source : Source)
    (moving : List (Fin 48)) : State :=
  { s with
    rows := Vector.ofFn fun c : Fin 48 =>
      if c ∈ x.pattern.listed then { s.rows[c] with claim := .tu st } else s.rows[c]
    stations :=
      let mute (w : Station) : StationRecord :=
        if (s.pathsOf moving).get w then
          { s.station w with claims := { (s.station w).claims with
              transition := (s.station w).claims.transition.set st true } }
        else s.station w
      ⟨mute .A, mute .B⟩
    units := s.units.set st { TransitionRecord.idle with
      phase := .driving, target := some x, priority := some priority, source := some source, moving := moving
      muted := s.pathsOf moving } }

/-- The station has the usable fallback `f` of its pattern in service `v` (R132): IN_PATTERN in a pattern not reached
by protection, whose fallback is ACTIVE for the station and not retiring. -/
def State.mayFallBack (s : State) (st : Station) (v : InService) (f : Fin 32) : Prop :=
  (s.station st).arrayState = .inPattern ∧ (s.station st).inService = some v ∧ v.byProtection = false ∧
  v.snap.pattern.fallback = some f ∧ (∃ w, s.pattern f = some w ∧ w.pattern.station = st) ∧
  ∀ run, s.commit = some run → (RecordId.pattern f, true) ∉ run.carried

/-! ### Arrivals -/

/-- A station's record after the arrival of a manual move that leaves a contactor its snapshot lists at the position
other than the one now sensed (R101); FAULT stands (log entry 30). -/
def StationRecord.brokenAs (r r' : StationRecord) : Prop :=
  r'.inService = none ∧ r'.revised = false ∧ r'.claims = { r.claims with fault := true } ∧
  (r.arrayState = .inPattern → r'.arrayState = .mixed ∧ r'.faultReason = none ∧ r'.prior = r.prior) ∧
  (r.arrayState = .faulted →
    r'.arrayState = .faulted ∧ r'.faultReason = r.faultReason ∧ r'.prior = r.prior) ∧
  (r.arrayState = .moving →
    r'.arrayState = .moving ∧ r'.faultReason = r.faultReason ∧ r'.prior = some (.mixed, none))

/-- The owner of the pulse has taken the arrival of contactor `c` (R74, R76, R101, R117). `s` is the state
with the pulse gone and the reading taken. A unit moves the contactor from outstanding to the moved list; when
none is left, its stage ends and the next one starts, or, while it closes, it ends by its cause. A manual move
ends. -/
def State.arrived (s t : State) (owner : PulseOwner) (c : Fin 48) : Prop :=
  (∀ u, owner = .tu u → c ∈ (s.unit u).outstanding →
    let left := (s.unit u).outstanding.filter fun d => d ≠ c
    let moved := (s.unit u).moved ++ [c]
    (left ≠ [] →
      t.unit u = { s.unit u with
        outstanding := left, moved := moved, drove := (s.unit u).drove || s.grantedTo t u } ∧
      t.stations = s.stations ∧ s.sameRecords t) ∧
    (∀ x n, left = [] → (s.unit u).closing = none → (s.row c).releaseDue = false →
      (s.unit u).target = some x → (s.unit u).stage = some n →
      (s.updUnit u fun w => { w with outstanding := [], moved := moved }).stageStarts t u x (n + 1) false) ∧
    (∀ cause q, left = [] → (s.unit u).closing = some cause → (s.unit u).request = some q →
      s.ended t u q .failedMixed cause.why ∧
      ((∀ f, s.monitor.failures.get u = some f → f.running = false) →
        s.arrayEnded t u .failedMixed cause.why))) ∧
  (owner = .manual →
    t.manual = none ∧ ((s.row c).claim = .manual → t.inMotion c = false → (t.row c).claim = .none) ∧
    (∀ u, s.sameUnit t u) ∧ s.sameRecords t ∧
    ∀ st path, (s.row c).path = some path →
      if path.has st && (s.inServiceLists st c).any (fun p => !s.standsAt c p) then
        (s.station st).brokenAs (t.station st)
      else t.station st = s.station st) ∧
  ((s.row c).releaseDue = true → t.inMotion c = false → (t.row c).claim = .none)

/-- A scan after the reset scan accepts a change of the row: its raw reading equals the candidate and differs from
the sensed value (R9). -/
def State.accepts (s : State) (contacts : List (Bool × Bool)) (c : Fin 48) : Prop :=
  placeReading contacts c ≠ (s.row c).sensed ∧ (s.row c).candidate = some (placeReading contacts c)

/-- The candidate that a raw reading leaves where it is not accepted (R9). -/
def Row.candidateAfter (raw : Sensed) (r : Row) : Option Sensed :=
  if raw = r.sensed then none else some raw

/-- The clock at a second boundary made at `now` (R139, R142). -/
def Clock.atBoundary (now : Nat) (c : Clock) : Clock :=
  { c with time := c.time.bind SiteTime.next, reference := now, boundary := now }

/-- The boundary that comes next makes no minute scan and does not end year 2099 (R142). -/
def State.quietBoundary (s : State) : Prop :=
  s.clock.time = none ∨ ∃ x y, s.clock.time = some x ∧ x.next = some y ∧ (y.second ≠ 0 ∨ s.started = false)

/-! ### The record store -/

/-- A pair's spare and staleness as R178 and R189 give them for its banks, its current bank and C. Where no bank is
current and none is valid the spare is bank 0 (log entry 34). -/
def BankPair.judgedAs (c : Nat) (seg : Segment) (p p' : BankPair) : Prop :=
  p'.bank0 = p.bank0 ∧ p'.bank1 = p.bank1 ∧
  (∀ k, p'.current = some k →
    p'.spare = !k ∧
    (p'.stale = true ↔ (p.bank !k).valid seg = true ∧ c < (p.bank !k).number)) ∧
  (p'.current = none →
    (p'.stale = true ↔ ∃ k, (p.bank k).valid seg = true ∧ c < (p.bank k).number) ∧
    (∀ k, (p.bank k).valid seg = true → (p.bank !k).valid seg = false → p'.spare = !k) ∧
    (∀ k, (p.bank k).valid seg = true → (p.bank !k).valid seg = true →
      (p.bank k).number < (p.bank !k).number → p'.spare = k) ∧
    ((p.bank false).valid seg = false → (p.bank true).valid seg = false → p'.spare = false))

/-- Start-up has chosen the marker and the banks (R188, R189, R182). -/
def State.banksChosen (s t : State) : Prop :=
  (∀ k, (t.pair .mark).current = some k →
    ((s.pair .mark).bank k).valid .mark = true ∧ (t.pair .mark).spare = !k ∧
    t.markerNumber = ((s.pair .mark).bank k).number ∧
    (((s.pair .mark).bank !k).valid .mark = true →
      ((s.pair .mark).bank !k).number ≤ ((s.pair .mark).bank k).number)) ∧
  ((t.pair .mark).current = none →
    (∀ k, ((s.pair .mark).bank k).valid .mark = false) ∧ (t.pair .mark).spare = false ∧
    t.markerNumber = 0) ∧
  (∀ k, (t.pair .mark).bank k = (s.pair .mark).bank k) ∧
  (∀ seg, seg ≠ .mark →
    BankPair.judgedAs t.markerNumber seg (s.pair seg) (t.pair seg) ∧
    (∀ k, (t.pair seg).current = some k →
      ((s.pair seg).bank k).valid seg = true ∧ ((s.pair seg).bank k).number ≤ t.markerNumber ∧
      (((s.pair seg).bank !k).valid seg = true → ((s.pair seg).bank !k).number ≤ t.markerNumber →
        ((s.pair seg).bank !k).number ≤ ((s.pair seg).bank k).number)) ∧
    ((t.pair seg).current = none → ∀ k, ((s.pair seg).bank k).valid seg = true →
      t.markerNumber < ((s.pair seg).bank k).number)) ∧
  (∀ seg k, ((s.pair seg).bank k).valid seg = true → ((s.pair seg).bank k).number ≤ t.store.highest) ∧
  (t.store.highest = 0 ∨
    ∃ seg k, ((s.pair seg).bank k).valid seg = true ∧ ((s.pair seg).bank k).number = t.store.highest) ∧
  t.store.running = none ∧ t.store.waiting = []

/-- The tables are read from the segments in force (R189, R190); a segment without a current bank reads empty,
the site record then as the blank-store values of R1. -/
def State.tablesRead (s : State) (t : Tables) : Prop :=
  (∀ seg, (s.pair seg).current = none → s.inForce seg = .none) ∧
  (∀ seg k, (s.pair seg).current = some k → s.inForce seg = ((s.pair seg).bank k).records) ∧
  (∀ (n : Fin 4) (k : Nat) (slot : Fin 32), k < 8 → slot.val = 8 * n.val + k →
    (∀ l, s.inForce (.p n) = .patterns l → t.patterns[slot] = l.getD k none) ∧
    (s.inForce (.p n) = .none → t.patterns[slot] = none)) ∧
  (∀ (n : Fin 4) (k : Nat) (i : Fin 64), k < 16 → i.val = 16 * n.val + k →
    (∀ l, s.inForce (.s n) = .entries l → t.schedule[i] = l.getD k none) ∧
    (s.inForce (.s n) = .none → t.schedule[i] = none)) ∧
  (∀ x code, s.inForce .site = .site x code → t.site = x ∧ t.code = code) ∧
  (s.inForce .site = .none → t.code = none ∧ t.site =
    { config := Vector.replicate 48 none, towers := ⟨0, 0⟩, coilPulse := 100, travelLimit := 800,
      slowThreshold := 400, concurrency := 2, carrierOffWait := 5, toleranceRun := 3,
      silenceLimit := 60, holdLimit := 30, maintenance := 0 })

/-- Every window of the pattern is on a tower of its station's monitored-tower set. -/
def Site.watches (x : Site) (p : Pattern) : Prop :=
  ∀ w ∈ p.windows, (x.towers.get p.station).getLsbD w.tower.val = true

/-- The pattern fits the site record (R191 pass 1). -/
def Site.fits (x : Site) (p : Pattern) : Prop := x.carries p.station p ∧ x.watches p

/-- The slot is ACTIVE for the station and its pattern is not withheld. -/
def Tables.keeps (t : Tables) (slot : Fin 32) (st : Station) : Prop :=
  ∃ v, t.patterns[slot] = some v ∧ t.site.fits v.pattern ∧ v.pattern.station = st

/-- The tables have been neutralized (R191): patterns that do not fit are withheld, fallbacks that name no
other kept pattern of the station are absent, ENABLED entries without a kept target are DISABLED, and nothing
else is changed. Every fallback then names another ACTIVE pattern of the station, and every ENABLED entry one
of its station. -/
def Tables.neutralizedAs (t n : Tables) : Prop :=
  n.site = t.site ∧ n.code = t.code ∧
  (∀ i : Fin 32, t.patterns[i] = none → n.patterns[i] = none) ∧
  (∀ (i : Fin 32) (v : Versioned), t.patterns[i] = some v →
    (¬ t.site.fits v.pattern → n.patterns[i] = none) ∧
    (t.site.fits v.pattern →
      (v.pattern.fallback = none → n.patterns[i] = some v) ∧
      (∀ f, v.pattern.fallback = some f →
        (f ≠ i → t.keeps f v.pattern.station → n.patterns[i] = some v) ∧
        (f = i ∨ ¬ t.keeps f v.pattern.station →
          n.patterns[i] = some { v with pattern := { v.pattern with fallback := none } })))) ∧
  (∀ i : Fin 64, t.schedule[i] = none → n.schedule[i] = none) ∧
  (∀ (i : Fin 64) (e : Entry), t.schedule[i] = some e →
    (e.enabled = false ∨ t.keeps e.target e.station → n.schedule[i] = some e) ∧
    (e.enabled = true → ¬ t.keeps e.target e.station →
      n.schedule[i] = some { e with enabled := false })) ∧
  (∀ (i f : Fin 32) (v : Versioned), n.patterns[i] = some v → v.pattern.fallback = some f →
    f ≠ i ∧ ∃ w, n.patterns[f] = some w ∧ w.pattern.station = v.pattern.station) ∧
  (∀ (i : Fin 64) (e : Entry), n.schedule[i] = some e → e.enabled = true →
    ∃ w, n.patterns[e.target] = some w ∧ w.pattern.station = e.station)

/-- The operations data in force: the records of OPS's current bank, or counts 0 and nothing saved (R179, R189). -/
def State.opsInForce (s : State) (d : OpsData) : Prop :=
  (∀ k, (s.pair .ops).current = some k → ((s.pair .ops).bank k).records = .ops d) ∧
  ((s.pair .ops).current = none → d = { counts := [], saved := ⟨none, none⟩ })

/-- The condition R7 gives a contactor that becomes configured. -/
def Sensed.freshCondition : Sensed → Condition
  | .conflict => .conflict
  | .between => .drifted
  | .at1 | .at2 => .normal

/-- The condition of a row under a contactor's configuration (R7). -/
def Row.conditionUnder (path : Option Path) (r : Row) : Condition :=
  if r.path.isNone && path.isSome then r.sensed.freshCondition
  else if r.path.isSome && path.isNone then .normal
  else r.condition

/-- A row has been brought into line with a contactor's configuration (R7). -/
def Row.configuredAs (path : Option Path) (r r' : Row) : Prop :=
  { r' with path := r.path, commanded := r.commanded, condition := r.condition } = r ∧ r'.path = path ∧
  r'.condition = r.conditionUnder path ∧
  (r.path = none → path ≠ none → r'.commanded =
    if r.sensed = .at1 then some .one else if r.sensed = .at2 then some .two else none) ∧
  (r.path ≠ none → path = none → r'.commanded = none) ∧
  ((r.path = none ↔ path = none) → r'.commanded = r.commanded)

/-- A row's maintenance mark after an examination under a threshold (R20). -/
def Row.examinedUnder (threshold : Nat) (r : Row) : Bool :=
  r.maintenance || decide (threshold ≠ 0 ∧ threshold ≤ r.operations)

/-- A waiting job has started as the store stands in `t` (R182, R183): it takes the next number, and its list
is its own segments and those of the stale pairs, in their order. -/
def State.jobStarted (s t : State) (w : WaitingJob) (rest : List WaitingJob) : Prop :=
  t.store.highest = s.store.highest + 1 ∧ t.store.waiting = rest ∧
  ∃ job, t.store.running = some job ∧ job.kind = w.kind ∧ job.number = s.store.highest + 1 ∧
    job.list = tableSegments.filter (fun seg => decide (seg ∈ w.touched) || (t.pair seg).stale) ∧
    job.left = job.list ∧ job.ops = (if Segment.ops ∈ job.list then some t.opsData else none) ∧
    job.step = .erase

/-- The marker a job has written (R180). -/
def State.markerOf (s : State) (job : Job) (m : MarkerData) : Prop :=
  m.kind = job.kind ∧
  m.lastHost = (if job.kind = .hostCommit then job.number else s.lastHostCommit) ∧
  ∀ seg, seg ≠ .mark →
    m.inForce.getD seg.idx.val 0 = if seg ∈ job.list then job.number else s.inForceNumber seg

/-! ### Commits -/

/-- `t` is the tables with every staged entry applied, a REPLACE of a slot taking the version named (R170, R174;
R3 for the site code). -/
def State.commitsTo (s : State) (version : Fin 32 → Nat) (t : Tables) : Prop :=
  (∀ slot : Fin 32,
    ((∀ x, StagedEntry.pattern slot x ∉ s.staging) → t.patterns[slot] = s.tables.patterns[slot]) ∧
    (∀ x, StagedEntry.pattern slot x ∈ s.staging → t.patterns[slot] = x.map fun p => ⟨p, version slot⟩)) ∧
  (∀ i : Fin 64,
    ((∀ x, StagedEntry.schedule i x ∉ s.staging) → t.schedule[i] = s.tables.schedule[i]) ∧
    (∀ x, StagedEntry.schedule i x ∈ s.staging → t.schedule[i] = x)) ∧
  ((∀ x form, StagedEntry.site x form ∉ s.staging) → t.site = s.tables.site ∧ t.code = s.tables.code) ∧
  (∀ x form, StagedEntry.site x form ∈ s.staging → t.site = x ∧
    (form = .absent → t.code = s.tables.code) ∧ (∀ code, form = .set code → t.code = some code) ∧
    (form = .removal → t.code = none))

/-- The slot is a station's in-service slot, the target of a transition in flight, or that of a pending request
(R171). -/
def State.uses (s : State) (slot : Fin 32) : Prop :=
  ∃ st, (∃ v, (s.station st).inService = some v ∧ v.snap.slot = slot) ∨
    ((s.unit st).phase ≠ .idle ∧ ∃ x, (s.unit st).target = some x ∧ x.slot = slot) ∨
    ∃ r, (s.station st).request = some r ∧ r.slot = slot

/-- Test a or test b of R170 fails at the slot. -/
def State.takenFromUse (s : State) (slot : Fin 32) : Prop :=
  (s.uses slot ∧ (StagedEntry.pattern slot none ∈ s.staging ∨
    ∃ p v, StagedEntry.pattern slot (some p) ∈ s.staging ∧ s.pattern slot = some v ∧
      v.pattern.station ≠ p.station)) ∨
  ∃ x form st v, StagedEntry.site x form ∈ s.staging ∧ (s.station st).inService = some v ∧
    v.snap.slot = slot ∧ ¬ x.carries st v.snap.pattern

/-- One of the tests c to f of R170 fails at the slot, the after-tables being `t`. -/
def State.brokenAfter (s : State) (t : Tables) (slot : Fin 32) : Prop :=
  ∃ v, t.patterns[slot] = some v ∧
    ((((∃ x, StagedEntry.pattern slot x ∈ s.staging) ∨ ∃ x form, StagedEntry.site x form ∈ s.staging) ∧
        ¬ t.site.fits v.pattern) ∨
      ∃ f, v.pattern.fallback = some f ∧
        (f = slot ∨ ∀ w, t.patterns[f] = some w → w.pattern.station ≠ v.pattern.station))

/-- The test of R170 fails at the schedule entry, the after-tables being `t`. -/
def Tables.strands (t : Tables) (i : Fin 64) : Prop :=
  ∃ e, t.schedule[i] = some e ∧ e.enabled = true ∧
    ∀ w, t.patterns[e.target] = some w → w.pattern.station ≠ e.station

/-- The version a commit gives a slot that it replaces (R29). -/
def State.versionAfter (s : State) (slot : Fin 32) : Nat :=
  match s.pattern slot with
  | none => 1
  | some v => if v.version = 65535 then 1 else v.version + 1

/-! ### Staging checks -/

/-- The reply of the first check of a list that fails. -/
def firstFailure (checks : List (Bool × Reply)) : Option Reply := (checks.find? (·.1)).map (·.2)

/-- A check that fails when `b` holds, with its field code. -/
def failsWhen (code : Nat) (b : Prop) [Decidable b] : Bool × Reply := (decide b, ⟨.fieldError, u8 code⟩)

/-- The path a site record gives a contactor number, if it configures it. -/
def Site.pathAt (x : Site) (c : Nat) : Option Path := (x.config[c]?).join

/-- The checks of a pattern record as sent, R31's orders 2 to 18, against the reference site records of R32. -/
def patternChecks (refs : List Site) (r : RawPattern) : List (Bool × Reply) :=
  let settings := r.stages.flatten
  let st : Station := if r.station = 1 then .A else .B
  let unconfigured (c : Nat) : Bool := refs.all fun x => (x.pathAt c).isNone
  let outOfPath (c : Nat) : Bool := refs.all fun x => !(x.pathAt c).any fun p => p.has st
  [failsWhen 2 (r.station ≠ 1 ∧ r.station ≠ 2),
   failsWhen 3 (8 < r.label.length ∨ ∃ b ∈ r.label, b.toNat < 0x20 ∨ 0x7E < b.toNat),
   failsWhen 4 (r.powerStep < 1 ∨ 8 < r.powerStep),
   failsWhen 5 (r.stages.length < 1 ∨ 6 < r.stages.length),
   failsWhen 6 (∃ g ∈ r.stages, g.length < 1 ∨ 16 < g.length),
   failsWhen 7 (∃ x ∈ settings, 47 < x.1 ∨ (x.2 ≠ 1 ∧ x.2 ≠ 2)),
   failsWhen 8 (¬ (settings.map (·.1)).Nodup),
   failsWhen 9 (∃ x ∈ settings, unconfigured x.1 = true),
   (settings.any fun x => outOfPath x.1,
    ⟨.notInPath, u8 (((settings.find? fun x => outOfPath x.1).map (·.1)).getD 0)⟩),
   failsWhen 10 (∃ w ∈ r.windows, w.tower < 1 ∨ 8 < w.tower),
   failsWhen 11 (¬ (r.windows.map (·.tower)).Nodup),
   failsWhen 12 (∃ w ∈ r.windows, ∀ x ∈ refs, (x.towers.get st).getLsbD (w.tower - 1) = false),
   failsWhen 13 (∃ w ∈ r.windows, 9999 < w.ratioLow ∨ 9999 < w.ratioHigh ∨ w.ratioHigh < w.ratioLow),
   failsWhen 14 (∃ w ∈ r.windows, w.centre < -1800 ∨ 1800 < w.centre),
   failsWhen 15 (∃ w ∈ r.windows, 900 < w.halfWidth),
   failsWhen 16 (r.settle < 1 ∨ 120 < r.settle),
   failsWhen 17 (r.fallback ≠ 0xFF ∧ 31 < r.fallback)]

/-- The checks of a schedule entry as sent (R147). -/
def entryChecks (r : RawEntry) : List (Bool × Reply) :=
  [failsWhen 25 (r.state ≠ 2 ∧ r.state ≠ 3),
   failsWhen 26 (r.station ≠ 1 ∧ r.station ≠ 2),
   failsWhen 27 (r.firstDay < 1 ∨ 366 < r.firstDay),
   failsWhen 28 (r.lastDay < 1 ∨ 366 < r.lastDay),
   failsWhen 29 (1439 < r.minute),
   failsWhen 30 (31 < r.target),
   failsWhen 31 (3 < r.precedence)]

/-- The checks of a site record as sent (R2). -/
def siteChecks (r : RawSite) : List (Bool × Reply) :=
  [failsWhen 32 (∃ v ∈ r.config, 3 < v),
   failsWhen 34 (r.coilPulse < 20 ∨ 500 < r.coilPulse),
   failsWhen 35 (r.travelLimit < 100 ∨ 3000 < r.travelLimit ∨ r.travelLimit % 10 ≠ 0),
   failsWhen 36 (r.slowThreshold < 50 ∨ r.travelLimit < r.slowThreshold + 10 ∨ r.slowThreshold % 10 ≠ 0),
   failsWhen 37 (r.concurrency < 1 ∨ 4 < r.concurrency),
   failsWhen 38 (r.carrierOffWait < 1 ∨ 30 < r.carrierOffWait),
   failsWhen 39 (r.toleranceRun < 1 ∨ 15 < r.toleranceRun),
   failsWhen 40 (r.silenceLimit < 10 ∨ 600 < r.silenceLimit),
   failsWhen 41 (r.holdLimit < 1 ∨ 120 < r.holdLimit),
   failsWhen 42 (r.maintenance ≠ 0 ∧ (r.maintenance < 1000 ∨ 10000000 < r.maintenance)),
   failsWhen 43 (r.form ≠ 1 ∧ r.form ≠ 2 ∧ r.form ≠ 3)]

/-- A pattern record as sent, judged for a slot: the first failing check's reply, or the entry whose content is the
record sent. -/
def State.patternJudged (s : State) (slot : Fin 32) (r : RawPattern) (x : Except Reply StagedEntry) : Prop :=
  match firstFailure (patternChecks s.referenceSites r) with
  | some e => x = .error e
  | none => ∃ p, x = .ok (.pattern slot (some p)) ∧ p.raw = { r with state := 2 }

/-- A schedule entry as sent, judged. -/
def entryJudged (i : Fin 64) (r : RawEntry) (x : Except Reply StagedEntry) : Prop :=
  match firstFailure (entryChecks r) with
  | some e => x = .error e
  | none => ∃ e, x = .ok (.schedule i (some e)) ∧ e.raw = r

/-- A site record as sent, judged; one the layout reads has 48 paths, two tower bytes and a code only in form 2. -/
def siteJudged (r : RawSite) (x : Except Reply StagedEntry) : Prop :=
  match firstFailure (siteChecks r) with
  | some e => x = .error e
  | none => ∃ y form, x = .ok (.site y form) ∧
    (r.config.length = 48 → r.towersA < 256 → r.towersB < 256 → (r.form ≠ 2 → r.code = []) →
      y.raw form = r)

/-! ### Requests -/

/-- The command of a request of the summary. -/
def Req.command (dt : Nat) (fields : List Byte) : Req → Instr
  | .lookup => .lookup dt fields
  | .lookupNext => .lookupNext dt fields
  | .readStation => .readStation dt fields
  | .readTransition => .readTransition dt fields
  | .readContactor => .readContactor dt fields
  | .readReadings => .readReadings dt fields
  | .readClock => .readClock dt fields
  | .readStore => .readStore dt fields
  | .readHolds => .readHolds dt fields
  | .stage => .stage dt fields
  | .amend => .amend dt fields
  | .retire => .retire dt fields
  | .discard => .discard dt fields
  | .discardAll => .discardAll dt fields
  | .commit => .commit dt fields
  | .setClock => .setClock dt fields
  | .resetCounters => .resetCounters dt fields
  | .clearContactorFault => .clearContactorFault dt fields
  | .transition => .transition dt fields
  | .abort => .abort dt fields
  | .continueHeld => .continueHeld dt fields
  | .setHold => .setHold dt fields
  | .clearHold => .clearHold dt fields
  | .carrierHold => .carrierHold dt fields
  | .carrierRelease => .carrierRelease dt fields
  | .manualMove => .manualMove dt fields
  | .suspendSchedule => .suspendSchedule dt fields
  | .resumeSchedule => .resumeSchedule dt fields
  | .saveCounters => .saveCounters dt fields
  | .presentCode => .presentCode dt fields
  | .revoke => .revoke dt fields
  | .readAttention => .readAttention dt fields
  | .clearAttention => .clearAttention dt fields
  | .maskAttention => .maskAttention dt fields

/-- The link takes a request and finds no failure of R195: start-up has ended, no response is being sent, the
fields have the layout's length, and authority is held where the request requires it. -/
def State.takes (s : State) (r : Req) (fields : List Byte) : Prop :=
  s.started = true ∧ s.link.rx ≠ .answering ∧ r.lengthFits fields = true ∧
  (r.needsAuthority = true → s.link.authority = true)

/-- The state in which a request has been answered and nothing else has changed but the time. -/
def State.answered (dt : Nat) (r : Req) (reply : Reply) (s : State) : State :=
  ((s.elapse dt).respond r.byte reply).drivePins

/-- The content a STAGE gives a record, checked; `none` where the record sent is not one of its kind, or gives a
pattern a state other than ACTIVE (R162). -/
def State.contentOf (s : State) (r : RecordId) (x : RawRecord) : Option (Except Reply StagedEntry) :=
  match r, x with
  | .pattern slot, .pattern p => if p.state = 2 then some (s.patternEntry slot p) else none
  | .schedule i, .entry e => some (scheduleEntry i e)
  | .site, .site y => some (siteEntry y)
  | _, _ => none

/-- The state in which an entry has been placed in the staging queue, answered OK with its position and the
occupancy. -/
def State.placed (dt : Nat) (r : Req) (e : StagedEntry) (s : State) : State :=
  { s with staging := putEntry e s.staging }.answered dt r
    ⟨.ok, u8 (((putEntry e s.staging).findIdx fun (x : StagedEntry) => x.id = e.id) + 1) ++
      u8 (putEntry e s.staging).length⟩

end Sys2Proof.Machine
end

