-- ==== Sys2Proof/WellFormed.lean ====
section
/-! DEFINITION. Which commands can be formed at the part's interfaces. -/

namespace Sys2Proof

/-- The request codes of the request summary (section 11.2). -/
def requestCodes : List Nat :=
  [0x10, 0x11, 0x12, 0x13, 0x14, 0x15, 0x16, 0x17, 0x18,
   0x20, 0x21, 0x22, 0x23, 0x24, 0x25, 0x26, 0x27, 0x28,
   0x30, 0x31, 0x32, 0x33, 0x34, 0x35, 0x36, 0x37, 0x38, 0x39, 0x3A,
   0x40, 0x41, 0x42, 0x43, 0x44]

/-- A link frame's length byte is 1..250 and counts the request code, so a frame carries at most 249
field bytes (link frame layout). -/
def fieldsFit (fields : List Byte) : Bool := decide (fields.length ≤ 249)

/-- The field bytes of a host request, if the command is one. -/
def Instr.fields? : Instr → Option (List Byte)
  | .lookup _ f | .lookupNext _ f | .readStation _ f | .readTransition _ f | .readContactor _ f
  | .readReadings _ f | .readClock _ f | .readStore _ f | .readHolds _ f | .stage _ f | .amend _ f
  | .retire _ f | .discard _ f | .discardAll _ f | .commit _ f | .setClock _ f | .resetCounters _ f
  | .clearContactorFault _ f | .transition _ f | .abort _ f | .continueHeld _ f | .setHold _ f
  | .clearHold _ f | .carrierHold _ f | .carrierRelease _ f | .manualMove _ f | .suspendSchedule _ f
  | .resumeSchedule _ f | .saveCounters _ f | .presentCode _ f | .revoke _ f | .readAttention _ f
  | .clearAttention _ f | .maskAttention _ f | .unknownRequest _ _ f => some f
  | .powerOnReset _ _ _ | .externalReset _ _ | .storeStartupEnd _ | .feedbackScan _ _ _
  | .carrierChangeAccepted _ _ _ | .coilDriveEnd _ _ | .travelLimitRetry _ _ | .travelLimitStuck _ _
  | .carrierOffWaitExpiry _ _ | .holdLimitExpiry _ _ | .breachWaitExpiry _ _ | .settleExpiry _ _
  | .verifyTimeout _ _ | .monitorFrame _ _ | .monitorFrameGap _ | .silenceExpiry _ _ _
  | .trefPulse _ | .trefMissingPulse _ | .trefLost _ | .internalBoundary _
  | .clockSourceAbsentAtStart _ | .segmentWriteDone _ | .markerWriteDone _ | .writeFault _ _
  | .hostFrameDiscard _ | .hostFrameTimeout _ | .responseSent _ | .lockOutExpiry _
  | .monitorByteReceived _ _ | .hostByteReceived _ _ => none

/-- A command that the interfaces can form: a request's fields fit a link frame; the code of an unknown
request is not in the summary (R195); a scan reads at most 48 places (R8) and orders each row at most
once. -/
def Instr.wellFormed (i : Instr) : Bool :=
  (match i.fields? with | some f => fieldsFit f | none => true) &&
  (match i with
   | .unknownRequest _ code _ => !(requestCodes.contains code.toNat)
   | .feedbackScan _ contacts order => decide (contacts.length ≤ 48) && decide order.Nodup
   | _ => true)

end Sys2Proof
end

