-- ==== Sys2Proof/Certificates/Slice0/Obligations.lean ====
section
/-! DEFINITION. The statements for the provers. Each docstring names the rules of spec/ or, where a statement
rests on a choice of the model, the log entry. -/

open Sys2Proof Sys2Proof.Machine

/-! ### Steps and what every step keeps -/

/-- The command at the front of the queue is taken, and runs on the machine with the queue's rest. -/
def Obligations.StepRunsFrontCommand : Prop :=
  ∀ (c : Instr) (rest : List Instr) (s : State),
    step { s with pending := c :: rest } = exec c { s with pending := rest }

/-- The model's choice (log entry 4): on an empty queue the block idles. -/
def Obligations.StepIdlesOnEmptyQueue : Prop :=
  ∀ s : State, s.pending = [] → step s = .next s

/-- No command stops the machine. -/
def Obligations.EveryStepAnswersNext : Prop :=
  ∀ s : State, ∃ t, step s = .next t

/-- R44, R45, R91, R195, R200: the output pins show, after every step, the permits, the power steps, the coils
whose drive is on, the response being sent and the latched enabled flags. -/
def Obligations.StepKeepsPinsFollow : Prop :=
  ∀ s t : State, s.pinsFollow → step s = .next t → t.pinsFollow

/-- R47, R43: FAULTED and MIXED always stand together with FAULT in the mute-claim set, and UNSET with START-UP.
R43, R47, R48, R60, R64, R66, R172: a MOVING station's own unit is in DRIVING or HELD and holds its TRANSITION claim
on it, because every pattern, and so every target, lists only contactors whose path includes its station (R4, R7,
R34, R170), and because a unit's pulses are those of its outstanding contactors (R73, R88, R112, R117). R44: so a
station whose transmit permit is asserted is IN_PATTERN. -/
def Obligations.StepKeepsStationsLawful : Prop :=
  (∀ s t : State, s.stationsLawful → step s = .next t → t.stationsLawful) ∧
  (∀ s t : State, s.transitionsLawful → step s = .next t → t.transitionsLawful) ∧
  (∀ (s : State) (st : Station), s.stationsLawful → s.transitionsLawful →
    ((s.station st).arrayState = .moving →
      (s.unit st).phase.drives = true ∧ (s.station st).claims.transition.get st = true) ∧
    ((s.station st).permit = true → (s.station st).arrayState = .inPattern))

/-- R159: the queue never holds more than 16 entries, nor two entries for the same record. -/
def Obligations.StepKeepsStagingLawful : Prop :=
  ∀ s t : State, s.stagingLawful → step s = .next t → t.stagingLawful

/-- R199: a flag is latched exactly while it holds a detail of its own and a count of 1 to 255. -/
def Obligations.StepKeepsAttentionLawful : Prop :=
  ∀ s t : State, s.attentionLawful → step s = .next t → t.attentionLawful

/-- R129: supervision applies to a station exactly when its five terms hold. -/
def Obligations.StepKeepsSupervisionFollows : Prop :=
  ∀ s t : State, s.supervisionFollows → step s = .next t → t.supervisionFollows

/-- R89, R90: no entry whose path is safe waits while a place is free. R15, R16, R88: a contactor has at most one pulse
queued or in progress and is claimed by its owner. R89, R91: a pulse in progress either was in progress before the
step or is granted in it, within the coil concurrency and with carrier off along its path; its drive and travel limit
run from now, its contactor's commanded position is the target and the hot mark is empty. -/
def Obligations.StepKeepsGrantsDone : Prop :=
  (∀ s t : State, s.grantsDone → step s = .next t → t.grantsDone) ∧
  (∀ s t : State, s.pulsesClaimed → step s = .next t → t.pulsesClaimed) ∧
  (∀ s t : State, s.pulsesClaimed → step s = .next t →
    ∀ p ∈ t.arbiter.pulses, s.runsOn p ∨ t.grantedNow p)

/-- R183: a job that is handed over while none runs starts, so none waits while none runs. -/
def Obligations.StepKeepsJobsLawful : Prop :=
  ∀ s t : State, s.jobsLawful → step s = .next t → t.jobsLawful

/-- The invariants that every step keeps (O4 to O10), the claim law of R15, R16 and R88 among them, hold in the
state after reset. -/
def Obligations.ResetStateIsLawful : Prop :=
  State.reset.pinsFollow ∧ State.reset.stationsLawful ∧ State.reset.stagingLawful ∧
  State.reset.attentionLawful ∧ State.reset.supervisionFollows ∧ State.reset.grantsDone ∧
  State.reset.jobsLawful ∧ State.reset.transitionsLawful ∧ State.reset.pulsesClaimed

/-! ### Resets -/

/-- R6, R40, R59, R87, R102, R136, R138, R159, R177, R187, R194, R198, R199: the state after reset holds the values
the spec gives for reset, and the clock record and authority those of a power-on reset with the record lost: NOT_SET
on the internal base, authority not held and still to be granted by start-up. The model's own in it: log entry 6
(that State.reset is the state after such a reset) and log entry 7 (the sensed value BETWEEN before the reset scan).
-/
def Obligations.ResetStateHoldsResetValues : Prop :=
  State.reset.holdsResetValues ∧ State.reset.clock.time = none ∧ State.reset.clock.source = .internal ∧
  State.reset.clock.run = 0 ∧ State.reset.clock.lastPulse = none ∧
  State.reset.clock.reference = State.reset.now ∧ State.reset.clock.kept = false ∧
  State.reset.link.authority = false ∧ State.reset.link.grantAtStart = true

/-- R6, R40, R59, R87, R102, R136, R138, R159, R177, R187, R194, R198, R199: a power-on reset leaves the reset
values and the clock on its internal base, NOT_SET or kept and run on through the loss, and authority not held and
still to be granted by the end of start-up; the banks of the store and the waiting commands stand. The model's own
in it: log entry 7 (the sensed position BETWEEN of every contactor before the reset scan) and log entry 29 (a kept
clock run on by whole seconds). -/
def Obligations.PowerOnResetLeavesResetValues : Prop :=
  ∀ (dt : Nat) (vkeep : Bool) (lbr : BitVec 3) (s : State),
    ∃ t, exec (.powerOnReset dt vkeep lbr) s = .next t ∧ t.holdsResetValues ∧
      t.clock.source = .internal ∧ t.clock.run = 0 ∧ t.clock.lastPulse = none ∧ t.clock.kept = vkeep ∧
      t.clock.absentDue = some (s.now + dt + 4000) ∧
      (vkeep = false → t.clock.time = none ∧ t.clock.reference = s.now + dt) ∧
      (∀ n, vkeep = true → n = (s.now + dt - s.clock.reference) / 1000 →
        t.clock.time = runTime n s.clock.time ∧ t.clock.reference = s.clock.reference + 1000 * n) ∧
      t.link.authority = false ∧ t.link.grantAtStart = true ∧ t.link.rate = lbr ∧
      t.store.pairs = s.store.pairs ∧ t.pending = s.pending

/-- R6, R40, R59, R87, R102, R136, R138, R159, R177, R187, R194, R198, R199: an external reset leaves the reset
values, the clock record unchanged and authority as it stood, with no grant at the end of start-up. The model's own
in it: log entry 7 (the sensed position BETWEEN of every contactor before the reset scan) and log entry 47 (a grant
that the start-up of a power-on reset has still to make is dropped). -/
def Obligations.ExternalResetKeepsClockAndAuthority : Prop :=
  ∀ (dt : Nat) (lbr : BitVec 3) (s : State),
    ∃ t, exec (.externalReset dt lbr) s = .next t ∧ t.holdsResetValues ∧
      t.clock = s.clock ∧ t.link.authority = s.link.authority ∧ t.link.grantAtStart = false ∧
      t.link.rate = lbr ∧ t.store.pairs = s.store.pairs ∧ t.pending = s.pending

/-- R6, R7, R20, R40, R56, R153 to R155, R182, R188 to R192, R198, R199: the end of start-up chooses the marker and
the banks in force, loads the tables and the operations data from them and neutralizes the tables, so that every
fallback then names another ACTIVE pattern of its station and every ENABLED entry an ACTIVE target. In that event
the rows take their counts and configuration and are examined for maintenance, the stations their saved in-service
values and, with the clock VALID, their governing entries, the marks follow, each station's restore request is
handed to its unit, authority is granted after a power-on reset to a site without a code, and STORE_RESTORED is
raised. The model's own in it: log entry 34 (the spare of a pair with no valid bank). -/
def Obligations.StartupEndLoadsTables : Prop :=
  (∀ (dt : Nat) (s : State), s.started = false →
    ∃ t, exec (.storeStartupEnd dt) s = .next t ∧ t.started = true ∧
      t.tables = s.chooseBanks.loadTables.neutralize ∧
      (s.link.grantAtStart = true → t.link.authority = t.tables.code.isNone) ∧
      (s.link.grantAtStart = false → t.link.authority = s.link.authority) ∧
      t.attention[(15 : Fin 16)].latched = true ∧ t.clock = s.clock) ∧
  (∀ s : State, s.banksChosen s.chooseBanks) ∧
  (∀ s : State, s.tablesRead s.loadTables) ∧
  (∀ t : Tables, t.neutralizedAs t.neutralize) ∧
  (∀ (s : State) (config : Vector (Option Path) 48) (c : Fin 48),
    (s.row c).configuredAs config[c] ((s.applyConfig config).row c)) ∧
  (∀ (dt : Nat) (s b n : State) (d : OpsData), s.started = false → b = s.chooseBanks →
    n = { s with tables := b.loadTables.neutralize } → b.opsInForce d → s.commit = none →
    (∀ st, (s.unit st).phase = .idle ∧ (s.unit st).waiting = false ∧ (s.station st).request = none) →
    ∃ t, exec (.storeStartupEnd dt) s = .next t ∧
      (∀ (c : Fin 48) (r : Row), r = { s.row c with
          path := none
          operations := (d.counts.getD c.val (0, 0)).1
          hotMoves := (d.counts.getD c.val (0, 0)).2 } →
        (t.row c).sensedSide = { r with
          path := n.tables.site.config[c]
          condition := r.conditionUnder n.tables.site.config[c]
          maintenance := r.examinedUnder n.tables.site.maintenance }.sensedSide ∧
        (n.tables.site.config[c] ≠ none → r.sensed = .conflict ∨ r.sensed = .between →
          t.attention[(1 : Fin 16)].latched = true) ∧
        (r.maintenance = false → r.examinedUnder n.tables.site.maintenance = true →
          t.attention[(14 : Fin 16)].latched = true)) ∧
      (∀ st, (t.station st).saved = d.saved.get st) ∧
      (∀ time, s.clock.time = some time →
        (∀ st, (t.station st).governing = n.governs st time) ∧
        (∀ i : Fin 64, t.lastFired[i] =
          if (n.passedToday .A time).contains i || (n.passedToday .B time).contains i then some time.date
          else s.lastFired[i])) ∧
      (s.clock.time = none → t.lastFired = s.lastFired ∧
        ∀ st, (t.station st).governing = (s.station st).governing) ∧
      (b.markerData = none → t.store.hostStatus = .none ∧ t.store.opsStatus = .none) ∧
      (∀ m, b.markerData = some m →
        t.store.hostStatus = (if m.lastHost = 0 then .none else .completed m.lastHost) ∧
        t.store.opsStatus = (if m.kind = .opsSave then .completed b.markerNumber else .none)) ∧
      (∀ (st : Station) (entry : Option Entry),
        entry = ((t.station st).governing.bind fun i => n.entry i) →
        (∀ e, entry = some e → n.handedOver t st ⟨e.target, .commanded, .restore⟩) ∧
        (∀ slot version, entry = none → d.saved.get st = some (slot, version) →
          (n.activeFor slot st = true → n.handedOver t st ⟨slot, .commanded, .restore⟩) ∧
          (n.activeFor slot st = false → n.requestless t st)) ∧
        (entry = none → d.saved.get st = none → n.requestless t st)))

/-! ### The Host Link -/

/-- R195: the first failure, in the order STARTING, BAD_LENGTH, NOT_AUTHORIZED, is the response, and a refused
request changes nothing else. R194: nothing is received while a response is being sent. The model's own in it: log
entry 31. -/
def Obligations.LinkRefusesInOrder : Prop :=
  ∀ (r : Req) (dt : Nat) (fields : List Byte) (s : State),
    (s.link.rx = .answering → ∀ byte,
      exec (r.command dt fields) s = .next (s.elapse dt).drivePins ∧
      exec (.hostByteReceived dt byte) s = .next (s.elapse dt).drivePins) ∧
    (s.link.rx ≠ .answering → s.started = false →
      exec (r.command dt fields) s = .next (s.answered dt r ⟨.starting, []⟩)) ∧
    (s.link.rx ≠ .answering → s.started = true → r.lengthFits fields = false →
      exec (r.command dt fields) s = .next (s.answered dt r ⟨.badLength, []⟩)) ∧
    (s.link.rx ≠ .answering → s.started = true → r.lengthFits fields = true →
      r.needsAuthority = true → s.link.authority = false →
      exec (r.command dt fields) s = .next (s.answered dt r ⟨.notAuthorized, []⟩))

/-- R195: a request code outside the summary is answered UNKNOWN_REQUEST, or STARTING before start-up has ended. -/
def Obligations.UnknownRequestAnswered : Prop :=
  ∀ (dt : Nat) (code : Byte) (fields : List Byte) (s : State),
    s.link.rx ≠ .answering → code.toNat ∉ requestCodes →
    exec (.unknownRequest dt code fields) s = .next (((s.elapse dt).respond code
      ⟨if s.started then .unknownRequest else .starting, []⟩).drivePins)

/-- R194: a byte in SEEKING begins a frame when it is the sync byte and is ignored otherwise; in a frame it is
added, or ends the frame by a bad length, a character error or more than 50 ms; a byte that comes more than 50 ms
after the one before it ends the frame and is taken as in SEEKING. R195, R197: when the response is
sent the receiver is SEEKING again; when the lock-out timer runs out it stops. The model's own in it: log entries 1
and 31. -/
def Obligations.HostReceiverFollowsItsTable : Prop :=
  ∀ (dt : Nat) (byte : Option Byte) (s : State),
    (s.link.rx = .seeking → byte = some 0x7E →
      exec (.hostByteReceived dt byte) s = .next
        { s with now := s.now + dt,
                 link := { s.link with rx := .inFrame [], rxAt := s.now + dt } }.drivePins) ∧
    (s.link.rx = .seeking → byte ≠ some 0x7E →
      exec (.hostByteReceived dt byte) s = .next (s.elapse dt).drivePins) ∧
    (∀ bytes, s.link.rx = .inFrame bytes → s.now + dt ≤ s.link.rxAt + 50 → byte = none →
      exec (.hostByteReceived dt byte) s = .next
        ({ s with link := { s.link with rx := .seeking } }.elapse dt).drivePins) ∧
    (∀ b, s.link.rx = .inFrame [] → s.now + dt ≤ s.link.rxAt + 50 → byte = some b →
      (1 ≤ b.toNat ∧ b.toNat ≤ 250 →
        exec (.hostByteReceived dt byte) s = .next
          { s with now := s.now + dt,
                   link := { s.link with rx := .inFrame [b], rxAt := s.now + dt } }.drivePins) ∧
      (b.toNat = 0 ∨ 250 < b.toNat →
        exec (.hostByteReceived dt byte) s = .next
          ({ s with link := { s.link with rx := .seeking } }.elapse dt).drivePins)) ∧
    (∀ n bytes b, s.link.rx = .inFrame (n :: bytes) → s.now + dt ≤ s.link.rxAt + 50 →
      byte = some b → 1 ≤ n.toNat → n.toNat ≤ 250 → bytes.length < n.toNat →
      exec (.hostByteReceived dt byte) s = .next
        { s with now := s.now + dt,
                 link := { s.link with rx := .inFrame (n :: bytes ++ [b]),
                                       rxAt := s.now + dt } }.drivePins) ∧
    (∀ bytes, s.link.rx = .inFrame bytes → s.link.rxAt + 50 < s.now + dt →
      exec (.hostByteReceived dt byte) s = .next
        { s with now := s.now + dt,
                 link := { s.link with
                   rx := if byte = some 0x7E then .inFrame [] else .seeking
                   rxAt := if byte = some 0x7E then s.now + dt else s.link.rxAt } }.drivePins) ∧
    (∀ bytes, s.link.rx = .inFrame bytes →
      exec (.hostFrameTimeout dt) s = .next
        ({ s with link := { s.link with rx := .seeking } }.elapseTo dt
          (s.link.rxAt + 50)).drivePins) ∧
    (s.link.rx = .answering →
      exec (.responseSent dt) s = .next
        ({ s with link := { s.link with rx := .seeking, tx := [] } }.elapse dt).drivePins) ∧
    (∀ t, s.link.lockUntil = some t →
      exec (.lockOutExpiry dt) s = .next
        ({ s with link := { s.link with lockUntil := none } }.elapseTo dt t).drivePins)

/-- R194, R195: the byte that completes a frame whose sum is 0 makes the request of the frame's code with the
frame's fields, a code outside the summary included; a frame whose sum is not 0 is discarded. The model's own in it:
log entry 31. -/
def Obligations.CompleteFrameIsTheRequest : Prop :=
  ∀ (dt : Nat) (n code check : Byte) (fields : List Byte) (s : State),
    n.toNat = fields.length + 1 → n.toNat ≤ 250 →
    s.link.rx = .inFrame (n :: code :: fields) → s.now + dt ≤ s.link.rxAt + 50 →
    (byteSum (n :: code :: fields ++ [check]) % 256 = 0 →
      (∀ r : Req, code = r.byte →
        exec (.hostByteReceived dt (some check)) s = exec (r.command dt fields) s) ∧
      (code.toNat ∉ requestCodes →
        exec (.hostByteReceived dt (some check)) s = exec (.unknownRequest dt code fields) s)) ∧
    (byteSum (n :: code :: fields ++ [check]) % 256 ≠ 0 →
      exec (.hostByteReceived dt (some check)) s = .next
        ({ s with link := { s.link with rx := .seeking } }.elapse dt).drivePins) ∧
    exec (.hostFrameDiscard dt) s = .next
      ({ s with link := { s.link with rx := .seeking } }.elapse dt).drivePins

/-! ### Reads -/

/-- R57, R85, R135: a read that names station A or B is answered OK with that station's record, unit or readings as
they stand when the request is taken; any other station is answered FIELD_ERROR. R105, R144, R193: the clock, the
hold table and the store are answered OK as they stand. None changes anything, but that READ_STORE notes the step it
shows of the running write: a free value (log entry 19) that R181's order never lets fall behind the step an earlier
look at the same write has shown. The model's own in it, in the bodies answered: log entries 17, 22 to 27, 37 to 40,
42 and 44. -/
def Obligations.ReadsAnswer : Prop :=
  ∀ (dt : Nat) (b : Byte) (s : State),
    (s.takes .readStation [b] →
      (∀ st, stationOf b.toNat = some st →
        exec (.readStation dt [b]) s = .next (s.answered dt .readStation ⟨.ok, (s.station st).bytes⟩)) ∧
      (stationOf b.toNat = none →
        exec (.readStation dt [b]) s = .next (s.answered dt .readStation ⟨.fieldError, [0]⟩))) ∧
    (s.takes .readTransition [b] →
      (∀ st, stationOf b.toNat = some st →
        exec (.readTransition dt [b]) s = .next
          (s.answered dt .readTransition ⟨.ok, (s.elapse dt).transitionBody st⟩)) ∧
      (stationOf b.toNat = none →
        exec (.readTransition dt [b]) s = .next
          (s.answered dt .readTransition ⟨.fieldError, [0]⟩))) ∧
    (s.takes .readReadings [b] →
      (∀ st, stationOf b.toNat = some st →
        exec (.readReadings dt [b]) s = .next
          (s.answered dt .readReadings ⟨.ok, (s.elapse dt).readingsBody st⟩)) ∧
      (stationOf b.toNat = none →
        exec (.readReadings dt [b]) s = .next (s.answered dt .readReadings ⟨.fieldError, [0]⟩))) ∧
    (s.takes .readClock [] →
      exec (.readClock dt []) s = .next (s.answered dt .readClock ⟨.ok, (s.elapse dt).clockBody⟩)) ∧
    (s.takes .readHolds [] →
      exec (.readHolds dt []) s = .next (s.answered dt .readHolds ⟨.ok, s.holdsBody⟩)) ∧
    (s.takes .readStore [] →
      ∃ x : WriteStep, ∃ u : State,
        (∀ job, s.store.running = some job → WriteStep.code job.step ≤ WriteStep.code x) ∧
        u = { s with
          storeLooks := s.storeLooks + 1
          store := { s.store with running := s.store.running.map fun job => { job with step := x } } } ∧
        exec (.readStore dt []) s = .next (u.answered dt .readStore ⟨.ok, u.storeBody⟩))

/-- R22: READ_CONTACTOR answers one row entry for each contactor named, ascending; a number outside 0..47, last
below first, or more than 15 rows is answered FIELD_ERROR. The model's own in it: log entry 21. -/
def Obligations.ReadContactorAnswersRows : Prop :=
  ∀ (dt : Nat) (first last : Byte) (s : State), s.takes .readContactor [first, last] →
    (first.toNat ≤ last.toNat → last.toNat ≤ 47 → last.toNat < first.toNat + 15 →
      exec (.readContactor dt [first, last]) s = .next (s.answered dt .readContactor
        ⟨.ok, listOf s.rowBytes ((List.finRange 48).filter fun c =>
          decide (first.toNat ≤ c.val ∧ c.val ≤ last.toNat))⟩)) ∧
    (last.toNat < first.toNat ∨ 47 < last.toNat ∨ 47 < first.toNat ∨
        first.toNat + 15 ≤ last.toNat →
      exec (.readContactor dt [first, last]) s = .next
        (s.answered dt .readContactor ⟨.fieldError, [0]⟩))

/-- R166, R167, R160: a LOOKUP answered OK returns the record in its view and sets the cursor; a kind, an index or a
view out of range is answered FIELD_ERROR with its code and leaves the cursor. The model's own in it: log entry 24.
-/
def Obligations.LookupAnswersRecordAndSetsCursor : Prop :=
  ∀ (dt : Nat) (kind index view : Byte) (s : State), s.takes .lookup [kind, index, view] →
    (∀ r v, recordIdOf kind.toNat index.toNat = .ok r → viewOf view.toNat = some v →
      exec (.lookup dt [kind, index, view]) s = .next
        ({ s with link := { s.link with cursor := some ⟨r, v⟩ } }.answered dt .lookup
          ⟨.ok, s.lookupBody r v⟩)) ∧
    (∀ r, recordIdOf kind.toNat index.toNat = .ok r → viewOf view.toNat = none →
      exec (.lookup dt [kind, index, view]) s = .next (s.answered dt .lookup ⟨.fieldError, [22]⟩)) ∧
    (∀ e, recordIdOf kind.toNat index.toNat = .error e →
      exec (.lookup dt [kind, index, view]) s = .next (s.answered dt .lookup e)) ∧
    (∀ k i : Nat,
      (k ≠ 1 → k ≠ 2 → k ≠ 3 → recordIdOf k i = .error ⟨.fieldError, [19]⟩) ∧
      (32 ≤ i → recordIdOf 1 i = .error ⟨.fieldError, [1]⟩) ∧
      (64 ≤ i → recordIdOf 2 i = .error ⟨.fieldError, [24]⟩) ∧
      (i ≠ 0 → recordIdOf 3 i = .error ⟨.fieldError, [20]⟩)) ∧
    (∀ slot : Fin 32, recordIdOf 1 slot.val = .ok (.pattern slot)) ∧
    (∀ e : Fin 64, recordIdOf 2 e.val = .ok (.schedule e)) ∧
    recordIdOf 3 0 = .ok .site

/-- R167: LOOKUP_NEXT without a cursor is answered WRONG_STATE; below the kind's last index it returns the record at
the next index, which becomes the cursor's; at the last index, or at SITE, it is answered END. The model's own in
it: log entry 24. -/
def Obligations.LookupNextWalksTheKind : Prop :=
  ∀ (dt : Nat) (s : State), s.takes .lookupNext [] →
    (s.link.cursor = none →
      exec (.lookupNext dt []) s = .next (s.answered dt .lookupNext ⟨.wrongState, []⟩)) ∧
    (∀ (i j : Fin 32) (v : View), s.link.cursor = some ⟨.pattern i, v⟩ → j.val = i.val + 1 →
      exec (.lookupNext dt []) s = .next
        ({ s with link := { s.link with cursor := some ⟨.pattern j, v⟩ } }.answered dt .lookupNext
          ⟨.ok, s.lookupBody (.pattern j) v⟩)) ∧
    (∀ (i j : Fin 64) (v : View), s.link.cursor = some ⟨.schedule i, v⟩ → j.val = i.val + 1 →
      exec (.lookupNext dt []) s = .next
        ({ s with link := { s.link with cursor := some ⟨.schedule j, v⟩ } }.answered dt .lookupNext
          ⟨.ok, s.lookupBody (.schedule j) v⟩)) ∧
    (∀ v, s.link.cursor = some ⟨.pattern 31, v⟩ ∨ s.link.cursor = some ⟨.schedule 63, v⟩ ∨
        s.link.cursor = some ⟨.site, v⟩ →
      exec (.lookupNext dt []) s = .next (s.answered dt .lookupNext ⟨.endOfKind, []⟩))

/-! ### The staging queue -/

/-- R161: while a commit is running every edit is answered COMMITTING and changes nothing. -/
def Obligations.EditsAnsweredCommitting : Prop :=
  ∀ (r : Req) (dt : Nat) (fields : List Byte) (s : State),
    r = .stage ∨ r = .amend ∨ r = .retire ∨ r = .discard ∨ r = .discardAll →
    s.takes r fields → s.commit.isSome = true →
    exec (r.command dt fields) s = .next (s.answered dt r ⟨.committing, []⟩)

/-- R160, R162, R159, R2, R31, R32, R147: a STAGE of a kind or an index out of range is refused with its code; one
of a record's content is refused by the first of the content's checks that fails, refused FULL where it would need a
seventeenth entry, and otherwise placed, answered OK with the entry's position and the occupancy. The checks of a
pattern are made against the working site record and the staged one. An entry placed takes the place of the record's
entry, or stands at the back where the record has none. The model's own in it: log entry 17. -/
def Obligations.StagePlacesCheckedContent : Prop :=
  (∀ (dt : Nat) (fields : List Byte) (f : StageFields) (e : Reply) (s : State),
    s.takes .stage fields → s.commit = none → readStage fields = some f →
    recordIdOf f.kind f.index = .error e →
    exec (.stage dt fields) s = .next (s.answered dt .stage e)) ∧
  ∀ (dt : Nat) (fields : List Byte) (f : StageFields) (r : RecordId) (s : State),
    s.takes .stage fields → s.commit = none → readStage fields = some f →
    recordIdOf f.kind f.index = .ok r → f.action ≠ 2 →
    (∀ reply, s.contentOf r f.record = some (.error reply) →
      exec (.stage dt fields) s = .next (s.answered dt .stage reply)) ∧
    (∀ e, s.contentOf r f.record = some (.ok e) → s.staged r = none → 16 ≤ s.staging.length →
      exec (.stage dt fields) s = .next (s.answered dt .stage ⟨.full, []⟩)) ∧
    (∀ e, s.contentOf r f.record = some (.ok e) → s.staged r ≠ none ∨ s.staging.length < 16 →
      exec (.stage dt fields) s = .next (s.placed dt .stage e)) ∧
    (s.contentOf r f.record = none →
      exec (.stage dt fields) s = .next (s.answered dt .stage ⟨.fieldError, [21]⟩)) ∧
    (∀ (e : StagedEntry) (queue : List StagedEntry),
      (∀ before after old, queue = before ++ old :: after → old.id = e.id →
        (queue.map StagedEntry.id).Nodup → putEntry e queue = before ++ e :: after) ∧
      ((∀ x ∈ queue, x.id ≠ e.id) → putEntry e queue = queue ++ [e])) ∧
    (∀ slot x, s.patternJudged slot x (s.patternEntry slot x)) ∧
    (∀ i x, entryJudged i x (scheduleEntry i x)) ∧ (∀ x, siteJudged x (siteEntry x)) ∧
    (s.stagingLawful → ∀ x : Site, x ∈ s.referenceSites ↔
      x = s.tables.site ∨ ∃ form, StagedEntry.site x form ∈ s.staging)

/-- R160, R163, R33, R2, R31, R32, R147: an AMEND of a kind or an index out of range is refused with its code, one
of a field outside the kind's list is refused with the kind's code; otherwise the base content, the record's staged
content or a copy of the working record, the site code then absent, takes the value in the named field alone, and
the merged content is checked and placed as a STAGE's is. A record staged as RETIRE is refused WRONG_STATE, and a
VACANT record not staged VACANT. The model's own in it: log entry 17. -/
def Obligations.AmendPlacesMergedContent : Prop :=
  (∀ (dt : Nat) (fields : List Byte) (f : AmendFields) (e : Reply) (s : State),
    s.takes .amend fields → s.commit = none → readAmend fields = some f →
    recordIdOf f.kind f.index = .error e →
    exec (.amend dt fields) s = .next (s.answered dt .amend e)) ∧
  ∀ (dt : Nat) (fields : List Byte) (f : AmendFields) (r : RecordId) (s : State),
    s.takes .amend fields → s.commit = none → readAmend fields = some f →
    recordIdOf f.kind f.index = .ok r →
    (f.id ∉ amendIds r.kind →
      exec (.amend dt fields) s = .next (s.answered dt .amend
        ⟨.fieldError, [match r.kind with | .pattern => 18 | .schedule => 23 | .site => 44]⟩)) ∧
    (∀ reply, f.id ∈ amendIds r.kind → s.amendEntry r f = .error reply →
      exec (.amend dt fields) s = .next (s.answered dt .amend reply)) ∧
    (∀ e, f.id ∈ amendIds r.kind → s.amendEntry r f = .ok e → s.staged r = none →
      16 ≤ s.staging.length → exec (.amend dt fields) s = .next (s.answered dt .amend ⟨.full, []⟩)) ∧
    (∀ e, f.id ∈ amendIds r.kind → s.amendEntry r f = .ok e →
      s.staged r ≠ none ∨ s.staging.length < 16 →
      exec (.amend dt fields) s = .next (s.placed dt .amend e)) ∧
    (∀ slot, r = .pattern slot → s.staged r = some (.pattern slot none) →
      s.amendEntry r f = .error ⟨.wrongState, []⟩) ∧
    (∀ slot, r = .pattern slot → s.staged r = none → s.pattern slot = none →
      s.amendEntry r f = .error ⟨.vacant, []⟩) ∧
    (∀ i, r = .schedule i → s.staged r = some (.schedule i none) →
      s.amendEntry r f = .error ⟨.wrongState, []⟩) ∧
    (∀ i, r = .schedule i → s.staged r = none → s.entry i = none →
      s.amendEntry r f = .error ⟨.vacant, []⟩) ∧
    (∀ slot base x, r = .pattern slot →
      (∃ p, s.staged r = some (.pattern slot (some p)) ∧ base = p.raw) ∨
        (s.staged r = none ∧ ∃ v, s.pattern slot = some v ∧ base = v.pattern.raw) →
      base.amend f.id f.value = some x → s.patternJudged slot x (s.amendEntry r f)) ∧
    (∀ i base x, r = .schedule i →
      (∃ e, s.staged r = some (.schedule i (some e)) ∧ base = e.raw) ∨
        (s.staged r = none ∧ ∃ e, s.entry i = some e ∧ base = e.raw) →
      base.amend f.id f.value = some x → entryJudged i x (s.amendEntry r f)) ∧
    (∀ base x, r = .site → s.stagingLawful →
      (∃ y form, StagedEntry.site y form ∈ s.staging ∧ base = y.raw form) ∨
        ((∀ y form, StagedEntry.site y form ∉ s.staging) ∧ base = s.tables.site.raw .absent) →
      base.amend f.id f.value = some x → siteJudged x (s.amendEntry r f)) ∧
    (∀ (p : RawPattern) (b : Byte) (label : List Byte) (stages : List (List (Nat × Nat)))
        (windows : List RawWindow),
      p.amend 2 [b] = some { p with station := b.toNat } ∧
      (label.length < 256 → p.amend 3 (text label) = some { p with label := label }) ∧
      p.amend 4 [b] = some { p with powerStep := b.toNat } ∧
      (stages.length < 256 → (∀ g ∈ stages, g.length < 256 ∧ ∀ x ∈ g, x.1 < 256 ∧ x.2 < 256) →
        p.amend 5 (listOf (listOf fun x => u8 x.1 ++ u8 x.2) stages) = some { p with stages := stages }) ∧
      (windows.length < 256 → (∀ w ∈ windows, w.tower < 256 ∧ w.ratioLow < 65536 ∧ w.ratioHigh < 65536 ∧
          -32768 ≤ w.centre ∧ w.centre < 32768 ∧ w.halfWidth < 65536) →
        p.amend 6 (listOf (fun w : RawWindow => u8 w.tower ++ u16 w.ratioLow ++ u16 w.ratioHigh ++
          i16 w.centre ++ u16 w.halfWidth) windows) = some { p with windows := windows }) ∧
      p.amend 7 [b] = some { p with settle := b.toNat } ∧
      p.amend 8 [b] = some { p with fallback := b.toNat }) ∧
    (∀ (e : RawEntry) (n : Nat) (b : Byte), n < 65536 →
      e.amend 1 [b] = some { e with state := b.toNat } ∧
      e.amend 2 [b] = some { e with station := b.toNat } ∧
      e.amend 3 (u16 n) = some { e with firstDay := n } ∧
      e.amend 4 (u16 n) = some { e with lastDay := n } ∧
      e.amend 5 (u16 n) = some { e with minute := n } ∧
      e.amend 6 [b] = some { e with target := b.toNat } ∧
      e.amend 7 [b] = some { e with precedence := b.toNat }) ∧
    (∀ (x : RawSite) (n m : Nat) (b b' : Byte) (bytes : List Byte), n < 65536 → m < 4294967296 →
      (bytes.length = 48 → x.amend 1 bytes = some { x with config := bytes.map fun (y : Byte) => y.toNat }) ∧
      x.amend 2 [b, b'] = some { x with towersA := b.toNat, towersB := b'.toNat } ∧
      x.amend 3 (u16 n) = some { x with coilPulse := n } ∧
      x.amend 4 (u16 n) = some { x with travelLimit := n } ∧
      x.amend 5 (u16 n) = some { x with slowThreshold := n } ∧
      x.amend 6 [b] = some { x with concurrency := b.toNat } ∧
      x.amend 7 [b] = some { x with carrierOffWait := b.toNat } ∧
      x.amend 8 [b] = some { x with toleranceRun := b.toNat } ∧
      x.amend 9 (u16 n) = some { x with silenceLimit := n } ∧
      x.amend 10 [b] = some { x with holdLimit := b.toNat } ∧
      x.amend 11 (u32 m) = some { x with maintenance := m } ∧
      x.amend 12 [1] = some { x with form := 1, code := [] } ∧
      (bytes.length = 8 → x.amend 12 (2 :: bytes) = some { x with form := 2, code := bytes }) ∧
      x.amend 12 [3] = some { x with form := 3, code := [] })

/-- R164, R162: the rows of RETIRE, for a pattern slot, a schedule entry and the site record; a STAGE whose action
is RETIRE is taken exactly as the RETIRE request. The model's own in it: log entry 17. -/
def Obligations.RetireFollowsItsTable : Prop :=
  ∀ (dt : Nat) (kind index : Byte) (req : Req) (fields : List Byte) (s : State),
    (req = .retire ∧ fields = [kind, index]) ∨ (req = .stage ∧ fields = [kind, index, 2]) →
    s.takes req fields → s.commit = none →
    (∀ e, recordIdOf kind.toNat index.toNat = .error e →
      exec (req.command dt fields) s = .next (s.answered dt req e)) ∧
    (recordIdOf kind.toNat index.toNat = .ok .site →
      exec (req.command dt fields) s = .next (s.answered dt req ⟨.wrongState, []⟩)) ∧
    (∀ r entry vacant, recordIdOf kind.toNat index.toNat = .ok r →
      (∃ slot, r = .pattern slot ∧ entry = .pattern slot none ∧ vacant = (s.pattern slot).isNone) ∨
        (∃ i, r = .schedule i ∧ entry = .schedule i none ∧ vacant = (s.entry i).isNone) →
      (∀ e, s.staged r = some e → e.isRetire = true →
        exec (req.command dt fields) s = .next (s.answered dt req
          ⟨.ok, u8 (s.stagedPosition r) ++ u8 s.staging.length⟩)) ∧
      (∀ e, s.staged r = some e → e.isRetire = false →
        exec (req.command dt fields) s = .next (s.placed dt req entry)) ∧
      (s.staged r = none → vacant = true →
        exec (req.command dt fields) s = .next (s.answered dt req ⟨.vacant, []⟩)) ∧
      (s.staged r = none → vacant = false → 16 ≤ s.staging.length →
        exec (req.command dt fields) s = .next (s.answered dt req ⟨.full, []⟩)) ∧
      (s.staged r = none → vacant = false → s.staging.length < 16 →
        exec (req.command dt fields) s = .next (s.placed dt req entry)))

/-- R165: DISCARD removes the record's entry, the others keep their order, and is answered OK with the occupancy, or
WRONG_STATE where there is none; DISCARD_ALL empties the queue. The model's own in it: log entry 17. -/
def Obligations.DiscardRemovesEntries : Prop :=
  ∀ (dt : Nat) (kind index : Byte) (s : State),
    (s.takes .discard [kind, index] → s.commit = none →
      (∀ e, recordIdOf kind.toNat index.toNat = .error e →
        exec (.discard dt [kind, index]) s = .next (s.answered dt .discard e)) ∧
      (∀ r, recordIdOf kind.toNat index.toNat = .ok r → s.staged r ≠ none →
        exec (.discard dt [kind, index]) s = .next
          ({ s with staging := s.staging.filter fun x => x.id ≠ r }.answered dt .discard
            ⟨.ok, u8 (s.staging.filter fun (x : StagedEntry) => x.id ≠ r).length⟩)) ∧
      (∀ r, recordIdOf kind.toNat index.toNat = .ok r → s.staged r = none →
        exec (.discard dt [kind, index]) s = .next (s.answered dt .discard ⟨.wrongState, []⟩))) ∧
    (s.takes .discardAll [] → s.commit = none →
      exec (.discardAll dt []) s = .next
        ({ s with staging := [] }.answered dt .discardAll ⟨.ok, []⟩))

/-! ### Quiet operations -/

/-- R18: CLEAR_CONTACTOR_FAULT makes the condition NORMAL and changes nothing else, also while a commit is
running. -/
def Obligations.ClearContactorFaultFollowsItsTable : Prop :=
  Req.needsAuthority .clearContactorFault = true ∧
  ∀ (dt : Nat) (b : Byte) (s : State), s.takes .clearContactorFault [b] →
    (47 < b.toNat →
      exec (.clearContactorFault dt [b]) s = .next
        (s.answered dt .clearContactorFault ⟨.fieldError, [0]⟩)) ∧
    (∀ c : Fin 48, b.toNat = c.val →
      ((s.row c).path = none ∨ (s.row c).condition = .normal ∨ (s.row c).condition = .slow ∨
          ((s.row c).condition = .conflict ∧ (s.row c).sensed = .conflict) →
        exec (.clearContactorFault dt [b]) s = .next
          (s.answered dt .clearContactorFault ⟨.wrongState, []⟩)) ∧
      ((s.row c).path ≠ none →
          (s.row c).condition = .stuck ∨ (s.row c).condition = .drifted ∨
            ((s.row c).condition = .conflict ∧ (s.row c).sensed ≠ .conflict) →
        exec (.clearContactorFault dt [b]) s = .next
          ({ s with rows := s.rows.set c { s.row c with condition := .normal } }.answered dt
            .clearContactorFault ⟨.ok, []⟩)))

/-- R103: SET_HOLD's checks, and the point it sets. That an armed byte other than 0 and 1 is a FIELD_ERROR is the
model's choice (log entry 18). -/
def Obligations.SetHoldSetsThePoint : Prop :=
  ∀ (dt : Nat) (point kind x y armed : Byte) (s : State), s.takes .setHold [point, kind, x, y, armed] →
    (∀ (i : Fin 4) (c : Fin 48) (on : Bool), point.toNat = i.val → kind.toNat = 1 → x.toNat = c.val →
      armed.toNat = (if on then 1 else 0) →
      exec (.setHold dt [point, kind, x, y, armed]) s = .next
        ({ s with holds := s.holds.set i (some ⟨.contactor c, on⟩) }.answered dt .setHold ⟨.ok, []⟩)) ∧
    (∀ (i : Fin 4) (st : Station) (on : Bool), point.toNat = i.val → kind.toNat = 2 →
      stationOf x.toNat = some st → 1 ≤ y.toNat → y.toNat ≤ 6 →
      armed.toNat = (if on then 1 else 0) →
      exec (.setHold dt [point, kind, x, y, armed]) s = .next
        ({ s with holds := s.holds.set i (some ⟨.stage st y.toNat, on⟩) }.answered dt .setHold
          ⟨.ok, []⟩)) ∧
    (3 < point.toNat ∨ (kind.toNat ≠ 1 ∧ kind.toNat ≠ 2) ∨ (kind.toNat = 1 ∧ 47 < x.toNat) ∨
        (kind.toNat = 2 ∧ (stationOf x.toNat = none ∨ y.toNat < 1 ∨ 6 < y.toNat)) ∨ 1 < armed.toNat →
      exec (.setHold dt [point, kind, x, y, armed]) s = .next
        (s.answered dt .setHold ⟨.fieldError, [0]⟩))

/-- R104: CLEAR_HOLD empties the point named, or all of them, also a point already empty; a HELD transition stays as
it is. -/
def Obligations.ClearHoldEmptiesPoints : Prop :=
  Req.needsAuthority .clearHold = true ∧
  ∀ (dt : Nat) (b : Byte) (s : State), s.takes .clearHold [b] →
    (∀ i : Fin 4, b.toNat = i.val →
      exec (.clearHold dt [b]) s = .next
        ({ s with holds := s.holds.set i none }.answered dt .clearHold ⟨.ok, []⟩)) ∧
    (b.toNat = 0xFF →
      exec (.clearHold dt [b]) s = .next
        ({ s with holds := Vector.replicate 4 none }.answered dt .clearHold ⟨.ok, []⟩)) ∧
    (3 < b.toNat → b.toNat ≠ 0xFF →
      exec (.clearHold dt [b]) s = .next (s.answered dt .clearHold ⟨.fieldError, [0]⟩))

/-- R197, R198: PRESENT_CODE's rows, the first that applies deciding; REVOKE makes authority not held. -/
def Obligations.PresentCodeAndRevokeSetAuthority : Prop :=
  ∀ (dt : Nat) (fields : List Byte) (s : State),
    (s.takes .presentCode fields →
      (∀ t, s.link.lockUntil = some t →
        exec (.presentCode dt fields) s = .next (s.answered dt .presentCode
          ⟨.lockedOut, u8 (max 1 ((t - (s.now + dt) + 999) / 1000))⟩)) ∧
      (s.link.lockUntil = none → s.tables.code = none ∨ s.tables.code = some fields →
        exec (.presentCode dt fields) s = .next
          ({ s with link := { s.link with authority := true } }.answered dt .presentCode ⟨.ok, []⟩)) ∧
      (∀ code, s.link.lockUntil = none → s.tables.code = some code → fields ≠ code →
        exec (.presentCode dt fields) s = .next
          ({ s with link := { s.link with authority := false, lockUntil := some (s.now + dt + 10000) }
             }.answered dt .presentCode ⟨.lockedOut, [10]⟩))) ∧
    (s.takes .revoke [] →
      exec (.revoke dt []) s = .next
        ({ s with link := { s.link with authority := false } }.answered dt .revoke ⟨.ok, []⟩))

/-! ### The Attention Unit -/

/-- R199: a raise latches its own flag and no other; the detail is that of the first occurrence, and the count is
held at 255. -/
def Obligations.RaiseLatchesItsFlag : Prop :=
  ∀ (d : Detail) (s : State),
    (s.attention[d.flag].latched = false →
      (s.raise d).attention[d.flag] =
        { s.attention[d.flag] with latched := true, detail := some d, count := 1 }) ∧
    (s.attention[d.flag].latched = true →
      (s.raise d).attention[d.flag] =
        { s.attention[d.flag] with count := min 255 (s.attention[d.flag].count + 1) }) ∧
    (∀ n : Fin 16, n ≠ d.flag → (s.raise d).attention[n] = s.attention[n]) ∧
    { s.raise d with attention := s.attention } = s

/-- R201: READ_ATTENTION reports the flags and the highest latched one, and clears that one in the same event when
it is a notice (12, 13 or 15). The model's own in it, in the body answered: log entries 17, 26, 40, 41 (the body with
no flag latched), 42 and 45. -/
def Obligations.ReadAttentionClearsAReportedNotice : Prop :=
  ∀ (dt : Nat) (s : State), s.takes .readAttention [] →
    ((∀ n : Fin 16, s.attention[n].latched = false) →
      exec (.readAttention dt []) s = .next (s.answered dt .readAttention ⟨.ok, s.attentionBody⟩)) ∧
    (∀ n : Fin 16, s.attention[n].latched = true → (∀ m : Fin 16, m < n → s.attention[m].latched = false) →
      (n = 12 ∨ n = 13 ∨ n = 15 →
        exec (.readAttention dt []) s = .next
          ({ s with attention :=
              s.attention.set n { s.attention[n] with latched := false, detail := none, count := 0 } }.answered dt
            .readAttention ⟨.ok, s.attentionBody⟩)) ∧
      (n ≠ 12 → n ≠ 13 → n ≠ 15 →
        exec (.readAttention dt []) s = .next
          (s.answered dt .readAttention ⟨.ok, s.attentionBody⟩)))

/-- R202: CLEAR_ATTENTION's rows; a clear acts on the flag alone. The model's own in it, in the detail bytes answered:
log entries 17, 26, 40, 42 and 45. -/
def Obligations.ClearAttentionFollowsItsTable : Prop :=
  Req.needsAuthority .clearAttention = false ∧
  ∀ (dt : Nat) (b : Byte) (s : State), s.takes .clearAttention [b] →
    (15 < b.toNat →
      exec (.clearAttention dt [b]) s = .next (s.answered dt .clearAttention ⟨.fieldError, [0]⟩)) ∧
    (∀ n : Fin 16, b.toNat = n.val →
      (s.attention[n].latched = false →
        exec (.clearAttention dt [b]) s = .next (s.answered dt .clearAttention ⟨.wrongState, []⟩)) ∧
      (s.attention[n].latched = true →
        exec (.clearAttention dt [b]) s = .next
          ({ s with attention :=
              s.attention.set n { s.attention[n] with latched := false, detail := none, count := 0 } }.answered dt
            .clearAttention
            ⟨.ok, s.attention[n].detailBytes ++ u8 s.attention[n].count⟩)))

/-- R200: MASK_ATTENTION sets the enable alone, and ATTN is driven low, after any command, exactly while a flag is
latched with its enable yes. The model's own in it: log entry 17. -/
def Obligations.MaskAttentionAndAttnFollow : Prop :=
  Req.needsAuthority .maskAttention = false ∧
  (∀ (dt : Nat) (b on : Byte) (s : State), s.takes .maskAttention [b, on] →
    (∀ (n : Fin 16) (x : Bool), b.toNat = n.val → on.toNat = (if x then 1 else 0) →
      exec (.maskAttention dt [b, on]) s = .next
        ({ s with attention := s.attention.set n { s.attention[n] with enable := x } }.answered dt
          .maskAttention ⟨.ok, yesNo s.attention[n].latched ++ u8 s.attention[n].count⟩)) ∧
    (15 < b.toNat ∨ 1 < on.toNat →
      exec (.maskAttention dt [b, on]) s = .next
        (s.answered dt .maskAttention ⟨.fieldError, [0]⟩))) ∧
  (∀ (c : Instr) (s t : State), exec c s = .next t →
    (t.pins.attn = true ↔ ∃ n : Fin 16, t.attention[n].latched = true ∧ t.attention[n].enable = true))

/-! ### Commits and store jobs -/

/-- R168: COMMIT is judged in order, and the first failure is the response and changes nothing else. -/
def Obligations.CommitJudgedInOrder : Prop :=
  ∀ (dt : Nat) (s : State), s.takes .commit [] → s.settled →
    (s.commit ≠ none →
      exec (.commit dt []) s = .next (s.answered dt .commit ⟨.committing, []⟩)) ∧
    (s.commit = none → s.staging = [] →
      exec (.commit dt []) s = .next (s.answered dt .commit ⟨.wrongState, []⟩)) ∧
    (s.commit = none → s.staging ≠ [] → s.busyForSite = true →
      exec (.commit dt []) s = .next (s.answered dt .commit ⟨.busy, []⟩)) ∧
    (∀ reply, s.commit = none → s.staging ≠ [] → s.busyForSite = false → s.validate = some reply →
      exec (.commit dt []) s = .next (s.answered dt .commit reply)) ∧
    (s.busyForSite = true ↔
      (∃ site code, StagedEntry.site site code ∈ s.staging) ∧
      ((∃ st, (s.unit st).phase ≠ .idle) ∨ (∃ st, (s.station st).request ≠ none) ∨
        ∃ c, (s.row c).claim = .manual))

/-- R170, R171, R148, R4, R34: validation. The after-tables are the working tables with every staged entry applied. Of
the pattern slots in ascending order, then the schedule entries, the first that fails a test refuses the commit:
IN_USE for a slot in use that is retired or given to the other station, or whose pattern in service a carried site
record does not carry; REFERENCED for a pattern that does not fit the site record or whose fallback names no other
pattern of its station, and for an ENABLED entry without a target of its station. The reply names the record. Tables
without a failing test pass, and tables that pass have no ENABLED entry and no fallback that names a slot not ACTIVE
for the station, no carried pattern that the site record does not fit, and no slot in use is retired. -/
def Obligations.ValidationAdmitsOnlyFittingTables : Prop :=
  (∀ (s : State) (version : Fin 32 → Nat), s.stagingLawful → s.commitsTo version (s.afterTables version)) ∧
  (∀ (s : State) (t : Tables), s.stagingLawful → t = s.afterTables s.nextVersion →
    (∀ slot : Fin 32, (∀ d, d < slot → ¬ s.takenFromUse d ∧ ¬ s.brokenAfter t d) →
      (s.takenFromUse slot → s.validate = some ⟨.inUse, u8 1 ++ u8 slot.val⟩) ∧
      (¬ s.takenFromUse slot → s.brokenAfter t slot →
        s.validate = some ⟨.referenced, u8 1 ++ u8 slot.val⟩)) ∧
    ((∀ slot, ¬ s.takenFromUse slot ∧ ¬ s.brokenAfter t slot) →
      (∀ i : Fin 64, t.strands i → (∀ d, d < i → ¬ t.strands d) →
        s.validate = some ⟨.referenced, u8 2 ++ u8 i.val⟩) ∧
      ((∀ i, ¬ t.strands i) → s.validate = none))) ∧
  ∀ s : State, s.validate = none →
    (∀ (i : Fin 64) (e : Entry), (s.afterTables s.nextVersion).schedule[i] = some e →
      e.enabled = true → (s.afterTables s.nextVersion).activeFor e.target e.station = true) ∧
    (∀ (slot f : Fin 32) (v : Versioned), (s.afterTables s.nextVersion).patterns[slot] = some v →
      v.pattern.fallback = some f →
      f ≠ slot ∧ (s.afterTables s.nextVersion).activeFor f v.pattern.station = true) ∧
    (∀ (slot : Fin 32) (v : Versioned), (s.afterTables s.nextVersion).patterns[slot] = some v →
      s.staged (.pattern slot) ≠ none ∨ s.stagedSite ≠ none →
      v.pattern.fitsPaths (s.afterTables s.nextVersion).site v.pattern.station = true ∧
      v.pattern.fitsTowers (s.afterTables s.nextVersion).site = true) ∧
    (∀ slot : Fin 32, s.slotInUse slot = true → s.staged (.pattern slot) ≠ some (.pattern slot none))

/-- R169, R29, R182, R183: a COMMIT that passes is ACCEPTED with its entries and segments; the entries and the
versions are fixed, 1 for a VACANT slot and otherwise the next one, 65,535 being followed by 1; the segments that
hold the staged records are each touched once; and the job starts with the next number and the stale segments, or
joins the waiting jobs. The queue and the working tables stay as they were. The model's own in it: log entry 17. -/
def Obligations.CommitAccepted : Prop :=
  ∀ (dt : Nat) (s : State), s.takes .commit [] → s.settled → s.jobsLawful → s.stagingLawful →
    s.store.highest < 4294967295 →
    s.commit = none → s.staging ≠ [] → s.busyForSite = false → s.validate = none →
    ∃ t run, exec (.commit dt []) s = .next t ∧ t.commit = some run ∧
      run.carried = s.staging.map (fun x => (x.id, x.isRetire)) ∧
      (∀ slot p, StagedEntry.pattern slot (some p) ∈ s.staging →
        run.version slot = s.nextVersion slot ∧ run.version slot = s.versionAfter slot) ∧
      (∀ n : Fin 4,
        (Segment.p n ∈ s.touched ↔ ∃ slot x, StagedEntry.pattern slot x ∈ s.staging ∧
          slot.val / 8 = n.val) ∧
        (Segment.s n ∈ s.touched ↔ ∃ i x, StagedEntry.schedule i x ∈ s.staging ∧ i.val / 16 = n.val)) ∧
      (Segment.site ∈ s.touched ↔ ∃ x form, StagedEntry.site x form ∈ s.staging) ∧
      Segment.ops ∉ s.touched ∧ Segment.mark ∉ s.touched ∧ s.touched.Nodup ∧
      (s.store.running = none → ∃ job, t.store.running = some job ∧ job.kind = .hostCommit ∧
        job.number = s.store.highest + 1 ∧ job.left = job.list ∧
        (∀ seg, seg ∈ job.list ↔ seg ∈ tableSegments ∧ (seg ∈ s.touched ∨ (s.pair seg).stale = true)) ∧
        t.store.highest = s.store.highest + 1 ∧ t.store.waiting = []) ∧
      (s.store.running ≠ none →
        t.store = { s.store with waiting := s.store.waiting ++ [⟨.hostCommit, s.touched, 0⟩] }) ∧
      t.link = (s.answered dt .commit
        ⟨.accepted, u8 s.staging.length ++ u8 (s.touched.length + 1)⟩).link ∧
      { t with now := s.now, commit := s.commit, store := s.store, link := s.link, pins := s.pins } = s

/-- R184, R21: SAVE_COUNTERS starts an OPS_SAVE, adds one to the waiting jobs or is merged into the one that waits;
with all numbers issued the save is abandoned and NUMBERS_EXHAUSTED raised (R186). RESET_COUNTERS clears the row's
counts and its maintenance mark and requests an OPS_SAVE. The model's own in it: log entries 17 and 28. -/
def Obligations.CounterRequestsFollowTheirTables : Prop :=
  ∀ (dt : Nat) (b : Byte) (s : State), s.settled → s.jobsLawful →
    (s.takes .saveCounters [] →
      (s.store.running = none → s.store.highest < 4294967295 →
        ∃ t job, exec (.saveCounters dt []) s = .next t ∧ t.store.running = some job ∧
          job.kind = .opsSave ∧ job.number = s.store.highest + 1 ∧ job.ops = some s.opsData ∧
          Segment.ops ∈ job.list ∧ t.store.highest = s.store.highest + 1 ∧
          t.link = (s.answered dt .saveCounters ⟨.accepted, [1]⟩).link ∧
          { t with now := s.now, store := s.store, link := s.link, pins := s.pins } = s) ∧
      (s.store.running = none → 4294967295 ≤ s.store.highest →
        exec (.saveCounters dt []) s = .next
          (({ s with store := { s.store with opsStatus := .failed none } }.raise
            (.numbersExhausted .opsSave)).answered dt .saveCounters ⟨.accepted, [1]⟩)) ∧
      (s.store.running ≠ none → (∀ w ∈ s.store.waiting, w.kind ≠ .opsSave) →
        exec (.saveCounters dt []) s = .next
          ({ s with store :=
              { s.store with waiting := s.store.waiting ++ [(⟨.opsSave, [.ops], 0⟩ : WaitingJob)] }
              }.answered dt
            .saveCounters ⟨.accepted, [2]⟩)) ∧
      (s.store.running ≠ none → (∃ w ∈ s.store.waiting, w.kind = .opsSave) →
        exec (.saveCounters dt []) s = .next
          ({ s with store :=
              { s.store with waiting := s.store.waiting.map fun (w : WaitingJob) =>
                  if w.kind = JobKind.opsSave then { w with merged := w.merged + 1 } else w } }.answered dt
            .saveCounters ⟨.accepted, [3]⟩))) ∧
    (s.takes .resetCounters [b] →
      (47 < b.toNat →
        exec (.resetCounters dt [b]) s = .next
          (s.answered dt .resetCounters ⟨.fieldError, [0]⟩)) ∧
      (∀ c : Fin 48, b.toNat = c.val →
        ∃ t, exec (.resetCounters dt [b]) s = .next t ∧
          t.rows = s.rows.set c
            { s.row c with operations := 0, hotMoves := 0, maintenance := false } ∧
          t.link = (s.answered dt .resetCounters ⟨.ok, []⟩).link ∧
          (s.store.running = none → s.store.highest < 4294967295 →
            ∃ job, t.store.running = some job ∧ job.kind = .opsSave ∧ Segment.ops ∈ job.list) ∧
          (s.store.running ≠ none → ∃ w ∈ t.store.waiting, w.kind = .opsSave) ∧
          (∀ n : Fin 16, n ≠ 0 → t.attention[n] = s.attention[n]) ∧
          { t with now := s.now, rows := s.rows, store := s.store, attention := s.attention,
                   link := s.link, pins := s.pins } = s))

/-! ### The clock requests and the schedule -/

/-- R143, R153, R154, R151 to R154, R52, R53: SET_CLOCK's checks, then the clock is VALID at the time given with
second 0, and each station whose schedule is not suspended is resolved: its governing entry, and the marks of the
entries passed today; the governing entry's target is requested, SCHEDULED, unless the station stands in it. The
model's own in it: log entry 26. -/
def Obligations.SetClockSetsAndResolves : Prop :=
  ∀ (dt : Nat) (y₁ y₀ d₁ d₀ m₁ m₀ : Byte) (year day minute : Nat) (s : State),
    s.takes .setClock [y₁, y₀, d₁, d₀, m₁, m₀] →
    year = 256 * y₁.toNat + y₀.toNat → day = 256 * d₁.toNat + d₀.toNat →
    minute = 256 * m₁.toNat + m₀.toNat →
    (s.settled → year < 2000 ∨ 2099 < year →
      exec (.setClock dt [y₁, y₀, d₁, d₀, m₁, m₀]) s = .next
        (s.answered dt .setClock ⟨.fieldError, [48]⟩)) ∧
    (s.settled → 2000 ≤ year → year ≤ 2099 → day < 1 ∨ yearLength year < day →
      exec (.setClock dt [y₁, y₀, d₁, d₀, m₁, m₀]) s = .next
        (s.answered dt .setClock ⟨.fieldError, [49]⟩)) ∧
    (s.settled → 2000 ≤ year → year ≤ 2099 → 1 ≤ day → day ≤ yearLength year → 1439 < minute →
      exec (.setClock dt [y₁, y₀, d₁, d₀, m₁, m₀]) s = .next
        (s.answered dt .setClock ⟨.fieldError, [50]⟩)) ∧
    (2000 ≤ year → year ≤ 2099 → 1 ≤ day → day ≤ yearLength year → minute ≤ 1439 →
      ∃ t, exec (.setClock dt [y₁, y₀, d₁, d₀, m₁, m₀]) s = .next t ∧
        t.clock = { s.clock with time := some ⟨⟨year, day⟩, minute, 0⟩,
                                 reference := s.now + dt, boundary := s.now + dt } ∧
        t.link = (s.answered dt .setClock ⟨.ok, timeBytes (some ⟨⟨year, day⟩, minute, 0⟩)⟩).link ∧
        (∀ st, (s.station st).suspended = true →
          (t.station st).governing = (s.station st).governing) ∧
        (∀ st, (s.station st).suspended = false →
          (t.station st).governing = s.governs st ⟨⟨year, day⟩, minute, 0⟩) ∧
        (∀ i : Fin 64, t.lastFired[i] =
          if [Station.A, Station.B].any (fun st => !(s.station st).suspended &&
              (s.passedToday st ⟨⟨year, day⟩, minute, 0⟩).contains i)
          then some ⟨year, day⟩ else s.lastFired[i]) ∧
        t.tables = s.tables ∧ t.staging = s.staging ∧ t.holds = s.holds ∧ s.sameSensed t ∧
        ((∀ st, (s.unit st).waiting = false) → ∀ st,
          (∀ i e, (s.station st).suspended = false → s.governs st ⟨⟨year, day⟩, minute, 0⟩ = some i →
            s.entry i = some e → s.standsInTarget st e.target = false →
            s.requestTaken t st ⟨e.target, .scheduled, .schedule i⟩) ∧
          ((s.station st).suspended = true ∨ s.governs st ⟨⟨year, day⟩, minute, 0⟩ = none ∨
              (∃ i e, s.governs st ⟨⟨year, day⟩, minute, 0⟩ = some i ∧ s.entry i = some e ∧
                s.standsInTarget st e.target = true) →
            s.requestless t st)))

/-- R156, R157, R153, R154, R52, R53: SUSPEND_SCHEDULE marks the station, also one suspended already.
RESUME_SCHEDULE of a station that is not suspended is answered WRONG_STATE; otherwise the mark is removed and, with
the clock VALID, the station is resolved: the governing entry, the marks, and the SCHEDULED request for its target
unless the station stands in it. -/
def Obligations.SuspendAndResumeFollowTheirTables : Prop :=
  ∀ (dt : Nat) (b : Byte) (s : State),
    (s.takes .suspendSchedule [b] →
      (stationOf b.toNat = none →
        exec (.suspendSchedule dt [b]) s = .next
          (s.answered dt .suspendSchedule ⟨.fieldError, [0]⟩)) ∧
      (∀ st, stationOf b.toNat = some st →
        exec (.suspendSchedule dt [b]) s = .next
          ((s.updStation st fun r => { r with suspended := true }).answered dt .suspendSchedule
            ⟨.ok, []⟩))) ∧
    (s.takes .resumeSchedule [b] →
      (s.settled → stationOf b.toNat = none →
        exec (.resumeSchedule dt [b]) s = .next
          (s.answered dt .resumeSchedule ⟨.fieldError, [0]⟩)) ∧
      (∀ st, stationOf b.toNat = some st →
        (s.settled → (s.station st).suspended = false →
          exec (.resumeSchedule dt [b]) s = .next
            (s.answered dt .resumeSchedule ⟨.wrongState, []⟩)) ∧
        (s.settled → (s.station st).suspended = true → s.clock.time = none →
          exec (.resumeSchedule dt [b]) s = .next
            ((s.updStation st fun r => { r with suspended := false }).answered dt .resumeSchedule
              ⟨.ok, []⟩)) ∧
        (∀ time, (s.station st).suspended = true → s.clock.time = some time →
          ∃ t, exec (.resumeSchedule dt [b]) s = .next t ∧
            (t.station st).suspended = false ∧ (t.station st).governing = s.governs st time ∧
            (∀ i : Fin 64, t.lastFired[i] =
              if (s.passedToday st time).contains i then some time.date else s.lastFired[i]) ∧
            (t.station st.other).suspended = (s.station st.other).suspended ∧
            (t.station st.other).governing = (s.station st.other).governing ∧
            t.link = (s.answered dt .resumeSchedule ⟨.ok, []⟩).link ∧ t.clock = s.clock ∧
            t.tables = s.tables ∧ s.sameSensed t ∧
            ((∀ u, (s.unit u).waiting = false) →
              (∀ i e, s.governs st time = some i → s.entry i = some e →
                s.standsInTarget st e.target = false →
                s.requestTaken t st ⟨e.target, .scheduled, .schedule i⟩) ∧
              (s.governs st time = none ∨ (∃ i e, s.governs st time = some i ∧ s.entry i = some e ∧
                  s.standsInTarget st e.target = true) → s.requestless t st) ∧
              s.requestless t st.other))))

/-- R146, R150 to R154, R142: an entry's date range, wrapping through the year end where its first day is above its
last; a station's scan takes the ENABLED entries for it whose range holds, whose minute is the clock's and that have
not fired today; the one of highest precedence, then of lowest number, governs; all of them are marked; and its
target is requested unless the station stands in it. A suspended station is not scanned. Resolution chooses, among
the entries of today at or before the minute, that of the latest minute, then of highest precedence, then of lowest
number, and where there is none, in the same way among those of yesterday at any minute; it marks the entries of
today at or before the minute. A station stands in a slot when it is IN_PATTERN in it, not revised, and its unit is
IDLE. The model's own in it: log entry 48 (an entry keeps one last-fired date). -/
def Obligations.MinuteScanChoosesAndMarks : Prop :=
  (∀ (e : Entry) (day : Nat),
    (e.firstDay ≤ e.lastDay → (e.holdsOn day = true ↔ e.firstDay ≤ day ∧ day ≤ e.lastDay)) ∧
    (e.lastDay < e.firstDay → (e.holdsOn day = true ↔ e.firstDay ≤ day ∨ day ≤ e.lastDay))) ∧
  (∀ (st : Station) (time : SiteTime) (s : State),
    (∀ i : Fin 64, i ∈ s.candidates st time ↔ ∃ e, s.entry i = some e ∧ e.enabled = true ∧
      e.station = st ∧ e.holdsOn time.date.day = true ∧ e.minute = time.minute ∧
      s.lastFired[i] ≠ some time.date) ∧
    ((s.station st).suspended = true → s.scanStation st time = (s, none)) ∧
    (s.candidates st time = [] → s.scanStation st time = (s, none)) ∧
    (∀ (i : Fin 64) (e : Entry), (s.station st).suspended = false → i ∈ s.candidates st time →
      s.entry i = some e →
      (∀ (j : Fin 64) (x : Entry), j ∈ s.candidates st time → s.entry j = some x →
        x.precedence < e.precedence ∨ (x.precedence = e.precedence ∧ i ≤ j)) →
      s.scanStation st time =
        ((s.markFired (s.candidates st time) time.date).setGoverning st (some i),
          if s.standsInTarget st e.target then none
          else some ⟨e.target, .scheduled, .schedule i⟩)) ∧
    (∀ i, s.passed st time.date.day time.minute i ↔ i ∈ s.passedToday st time) ∧
    (∀ i, s.passed st time.date.day time.minute i →
      (∀ j, s.passed st time.date.day time.minute j → s.leads i j) → s.governs st time = some i) ∧
    (∀ i, (∀ j, ¬ s.passed st time.date.day time.minute j) → s.passedAnyTime st time.date.dayBefore i →
      (∀ j, s.passedAnyTime st time.date.dayBefore j → s.leads i j) → s.governs st time = some i) ∧
    ((∀ j, ¬ s.passed st time.date.day time.minute j) →
      (∀ j, ¬ s.passedAnyTime st time.date.dayBefore j) → s.governs st time = none) ∧
    (∀ slot, s.standsInTarget st slot = true ↔ (s.station st).arrayState = .inPattern ∧
      (∃ v, (s.station st).inService = some v ∧ v.snap.slot = slot) ∧ (s.station st).revised = false ∧
      (s.unit st).phase = .idle)) ∧
  (∀ d : Date, (1 < d.day → d.dayBefore = d.day - 1) ∧
    (d.day ≤ 1 → d.dayBefore = if (d.year - 1) % 4 = 0 then 366 else 365))

/-! ### Transitions -/

/-- R51, R52, R53: TRANSITION's checks in order; a request for the target of the transition in flight is ABSORBED; a
request that cannot start waits in the pending slot, in place of one of no higher priority, which is dropped; behind
a PROTECTIVE one it is BUSY. -/
def Obligations.TransitionRequestJudged : Prop :=
  ∀ (dt : Nat) (a b : Byte) (s : State), s.takes .transition [a, b] → s.settled →
    (stationOf a.toNat = none ∨ 31 < b.toNat →
      exec (.transition dt [a, b]) s = .next (s.answered dt .transition ⟨.fieldError, [0]⟩)) ∧
    (∀ (st : Station) (slot : Fin 32), stationOf a.toNat = some st → b.toNat = slot.val →
      (s.pattern slot = none →
        exec (.transition dt [a, b]) s = .next (s.answered dt .transition ⟨.vacant, []⟩)) ∧
      (∀ v, s.pattern slot = some v → v.pattern.station ≠ st →
        exec (.transition dt [a, b]) s = .next
          (s.answered dt .transition ⟨.wrongStation, []⟩)) ∧
      (∀ v, s.pattern slot = some v → v.pattern.station = st → s.retiring slot = true →
        exec (.transition dt [a, b]) s = .next (s.answered dt .transition ⟨.retiring, []⟩)) ∧
      (∀ v, s.pattern slot = some v → v.pattern.station = st → s.retiring slot = false →
        ((s.station st).request = none → (s.unit st).phase ≠ .idle →
          (s.unit st).target.map Snapshot.slot = some slot →
          exec (.transition dt [a, b]) s = .next
            (s.answered dt .transition ⟨.absorbed, []⟩)) ∧
        ((s.station st).request = none →
          ((s.unit st).phase ≠ .idle ∧ (s.unit st).target.map Snapshot.slot ≠ some slot) ∨
            ((s.unit st).phase = .idle ∧ s.siteCommitRunning = true) →
          exec (.transition dt [a, b]) s = .next
            ((s.updStation st fun r => { r with request := some ⟨slot, .commanded, .host⟩ }).answered
              dt .transition ⟨.accepted, [2]⟩)) ∧
        (∀ held, (s.station st).request = some held → held.priority ≠ .protective →
          exec (.transition dt [a, b]) s = .next
            (((s.updStation st fun r => { r with request := some ⟨slot, .commanded, .host⟩ }).raise
              (.requestDropped st held)).answered dt .transition ⟨.accepted, [2]⟩)) ∧
        (∀ held, (s.station st).request = some held → held.priority = .protective →
          exec (.transition dt [a, b]) s = .next (s.answered dt .transition ⟨.busy, []⟩))))

/-- R60 to R68, R71, R77, R79: a TRANSITION that starts. Where a check of R62 or R63 fails it ends REFUSED with the
contactor those rules name. Where a listed contactor is claimed it waits in CLAIMING. Where every listed contactor
is free and stands at its position it is confirming: the pattern is put in service and it settles. Where one is
astray it claims all listed contactors and mutes the paths of those astray; while a muted station's carrier is on it
stays in MUTING, and where all are off it enters DRIVING at once and starts stage 1. A pulse granted in it is
granted by R89 and R91, and counts for its unit's ending (R118). The model's own in it: log entries 10, 14 to 16 and
35. -/
def Obligations.TransitionStarts : Prop :=
  (∀ (s : State) (st : Station) (p : Pattern), s.checksAnswer st p (s.claimingRefusal st p)) ∧
  ∀ (dt : Nat) (a b : Byte) (st : Station) (slot : Fin 32) (v : Versioned) (s : State),
    s.takes .transition [a, b] → stationOf a.toNat = some st → b.toNat = slot.val →
    s.pattern slot = some v → v.pattern.station = st → s.retiring slot = false →
    (s.station st).request = none → (s.unit st).phase = .idle → s.siteCommitRunning = false →
    s.settled → (∀ why, s.claimingRefusal st v.pattern = some why → s.nothingWaits →
      (s.unit st).muted = ⟨false, false⟩ → s.monitor.failures.get st = none →
      ∃ t, exec (.transition dt [a, b]) s = .next t ∧
        s.ended t st ⟨slot, .commanded, .host⟩ .refused (some why) ∧ s.sameSensed t ∧
        t.link = (s.answered dt .transition ⟨.accepted, [1]⟩).link) ∧
    (s.claimingRefusal st v.pattern = none →
      ((∃ c ∈ v.pattern.listed, (s.row c).claim ≠ .none) →
        exec (.transition dt [a, b]) s = .next
          ((s.updUnit st fun _ =>
            { TransitionRecord.idle with
              phase := .claiming, waiting := true, target := some ⟨slot, v.version, v.pattern⟩,
              priority := some .commanded, source := some .host }).answered dt .transition
            ⟨.accepted, [1]⟩)) ∧
      ((∀ c ∈ v.pattern.listed, (s.row c).claim = .none ∧ s.inMotion c = false ∧
          ∃ p, v.pattern.lists c = some p ∧ s.standsAt c p = true) →
        (s.unit st.other).waiting = false →
        ∃ t, exec (.transition dt [a, b]) s = .next t ∧
          t.unit st = { TransitionRecord.idle with
            phase := .settling, target := some ⟨slot, v.version, v.pattern⟩,
            priority := some .commanded, source := some .host,
            timer := some (s.now + dt + 1000 * v.pattern.settle), drove := s.grantedTo t st } ∧
          t.station st = { s.station st with
            arrayState := .inPattern, faultReason := none, prior := none,
            powerStep := v.pattern.powerStep, revised := false,
            inService := some ⟨⟨slot, v.version, v.pattern⟩, false,
              if v.pattern.windows.isEmpty then .notMonitored else .no⟩,
            claims := { (s.station st).claims with startUp := false, fault := false } } ∧
          t.station st.other = s.station st.other ∧
          (∀ c, (s.row c).claim ≠ .tu st → (t.row c).claim = (s.row c).claim) ∧
          t.monitor.failures.get st = none ∧
          s.sameRecords t ∧ s.sameSensed t ∧
          t.link = (s.answered dt .transition ⟨.accepted, [1]⟩).link) ∧
      (∀ moving, (∀ c ∈ v.pattern.listed, (s.row c).claim = .none) →
        moving = v.pattern.listed.filter (fun c => (v.pattern.lists c).any fun p => !s.standsAt c p) →
        moving ≠ [] → s.allCarriersOff (s.pathsOf moving) = false →
        ∃ t, exec (.transition dt [a, b]) s = .next t ∧
          t.unit st = { TransitionRecord.idle with
            phase := .muting, target := some ⟨slot, v.version, v.pattern⟩,
            priority := some .commanded, source := some .host, moving := moving,
            muted := s.pathsOf moving,
            timer := some (s.now + dt + 1000 * s.tables.site.carrierOffWait), drove := s.grantedTo t st } ∧
          (∀ u, t.station u = if (s.pathsOf moving).get u then
            { s.station u with claims := { (s.station u).claims with
                transition := (s.station u).claims.transition.set st true } } else s.station u) ∧
          (∀ c, (t.row c).claim = if c ∈ v.pattern.listed then .tu st else (s.row c).claim) ∧
          s.sameRecords t ∧ s.sameSensed t ∧
          t.link = (s.answered dt .transition ⟨.accepted, [1]⟩).link) ∧
      (∀ moving, (∀ c ∈ v.pattern.listed, (s.row c).claim = .none) →
        moving = v.pattern.listed.filter (fun c => (v.pattern.lists c).any fun p => !s.standsAt c p) →
        moving ≠ [] → s.allCarriersOff (s.pathsOf moving) = true → s.nothingWaits →
        ∃ t, exec (.transition dt [a, b]) s = .next t ∧ t.now = s.now + dt ∧
          (s.mutedForDriving st ⟨slot, v.version, v.pattern⟩ .commanded .host moving).stageStarts t st
            ⟨slot, v.version, v.pattern⟩ 1 false ∧
          s.sameSensed t ∧ t.link = (s.answered dt .transition ⟨.accepted, [1]⟩).link))

/-- R114 to R118, R16, R48, R54, R65, R67, R82, R97, R134: ABORT removes a pending request that is not PROTECTIVE
and acts on the transition by its phase. In CLAIMING and MUTING the transition ends FAILED_NO_MOVE and in SETTLING
and VERIFYING COMPLETED_UNVERIFIED, reason ABORTED; in DRIVING and HELD it closes, at once where no pulse of its own
is in progress. The ending leaves the station's array state as its outcome gives, closes a running open failure with
a fault, releases the contactor claims, at which a waiting unit of the other station tries again, and hands a
pending PROTECTIVE request to the unit. A pulse granted in it counts for its unit's ending (R118). The model's own
in it: log entries 12, 13, 15 and 26. -/
def Obligations.AbortFollowsThePhase : Prop :=
  ∀ (dt : Nat) (b : Byte) (s : State), s.takes .abort [b] → s.settled →
    (stationOf b.toNat = none →
      exec (.abort dt [b]) s = .next (s.answered dt .abort ⟨.fieldError, [0]⟩)) ∧
    (∀ st body, stationOf b.toNat = some st → body = abortBody (s.unit st).phase (s.removable st) →
      (∀ r, s.removable st = some r ↔
        (s.station st).request = some r ∧ r.priority ≠ .protective) ∧
      ((s.unit st).phase = .idle → s.removable st = none →
        exec (.abort dt [b]) s = .next (s.answered dt .abort ⟨.wrongState, []⟩)) ∧
      ((s.unit st).phase = .idle ∨ (s.unit st).closing ≠ none → s.removable st ≠ none →
        exec (.abort dt [b]) s = .next
          ((s.updStation st fun r => { r with request := none }).answered dt .abort ⟨.ok, body⟩)) ∧
      ((s.unit st).phase ≠ .idle → (s.unit st).closing ≠ none → s.removable st = none →
        exec (.abort dt [b]) s = .next (s.answered dt .abort ⟨.ok, body⟩)) ∧
      (∀ q, (s.unit st).closing = none → (s.unit st).request = some q →
        (s.station st).request = s.removable st →
        (s.unit st.other).waiting = false →
        ((s.unit st).waiting = false ∨ (s.unit st).phase = .claiming) →
        ((s.unit st).phase = .claiming ∨ (s.unit st).phase = .muting →
          ∃ t, exec (.abort dt [b]) s = .next t ∧ (t.station st).request = none ∧
            s.ended t st q .failedNoMove (some ⟨.aborted, none⟩) ∧ s.sameSensed t ∧
            ((∀ f, s.monitor.failures.get st = some f → f.running = false) →
              s.arrayEnded t st .failedNoMove (some ⟨.aborted, none⟩)) ∧
            (∀ f, s.monitor.failures.get st = some f → f.running = true →
              t.monitor.failures.get st = none ∧ (t.station st).claims.fault = true ∧
              (t.station st).arrayState = .faulted) ∧
            t.link = (s.answered dt .abort ⟨.ok, body⟩).link) ∧
        ((s.unit st).phase = .settling ∨ (s.unit st).phase = .verifying →
          ∃ t, exec (.abort dt [b]) s = .next t ∧ (t.station st).request = none ∧
            s.ended t st q .completedUnverified (some ⟨.aborted, none⟩) ∧ s.sameSensed t ∧
            t.link = (s.answered dt .abort ⟨.ok, body⟩).link) ∧
        ((s.unit st).phase = .driving ∨ (s.unit st).phase = .held →
          (s.pulsesOf (.tu st) = [] →
            ∃ t, exec (.abort dt [b]) s = .next t ∧ (t.station st).request = none ∧
              s.ended t st q
                (if (s.unit st).drove || !(s.unit st).moved.isEmpty then .failedMixed else .failedNoMove)
                (some ⟨.aborted, none⟩) ∧ s.sameSensed t ∧ s.startsClosing t st .aborted ∧
              (∀ x ∈ t.arbiter.queue, x.owner ≠ .tu st) ∧
              t.link = (s.answered dt .abort ⟨.ok, body⟩).link) ∧
          (s.pulsesOf (.tu st) ≠ [] →
            ∃ t, exec (.abort dt [b]) s = .next t ∧ (t.station st).request = none ∧
              t.unit st = { s.unit st with
                closing := some .aborted, timer := none, breach := none, heldBy := none,
                deferred := none, outstanding := s.pulsesOf (.tu st) } ∧
              (∀ x ∈ t.arbiter.queue, x.owner ≠ .tu st) ∧
              (∀ c ∈ s.pulsesOf (.tu st), (s.row c).claim = .tu st → s.queuedOf c = none →
                (t.row c).releaseDue = true) ∧ s.startsClosing t st .aborted ∧
              s.sameRecords t ∧ s.sameSensed t ∧
              t.link = (s.answered dt .abort ⟨.accepted, body⟩).link))) ∧
      (∀ r, (s.unit st).closing = none → (s.unit st).request ≠ none → (s.station st).request = some r →
        r.priority = .protective → (s.unit st.other).waiting = false →
        ((s.unit st).waiting = false ∨ (s.unit st).phase = .claiming) →
        (s.unit st).phase ≠ .idle → ((s.unit st).phase.drives = true → s.pulsesOf (.tu st) = []) →
        ∃ t, exec (.abort dt [b]) s = .next t ∧ s.sameSensed t ∧
          t.attention[(if (s.unit st).phase = .settling ∨ (s.unit st).phase = .verifying then 12 else 4 :
            Fin 16)].latched = true ∧
          (s.siteCommitRunning = false → s.handedOver t st r) ∧
          (s.siteCommitRunning = true →
            (t.station st).request = some r ∧ (t.unit st).phase = .idle)) ∧
      (∀ q y q', (s.unit st).closing = none → (s.unit st).request = some q →
        (s.unit st).phase = .claiming ∨ (s.unit st).phase = .muting →
        (∀ w, (s.station w).request = none) → (∃ c, (s.row c).claim = .tu st ∧ s.inMotion c = false) →
        (s.unit st.other).waiting = true → (s.unit st.other).target = some y →
        (s.unit st.other).request = some q' →
        ∃ t, exec (.abort dt [b]) s = .next t ∧ (t.unit st).phase = .idle ∧ s.sameSensed t ∧
          (∀ why, s.claimingRefusal st.other y.pattern = some why →
            (t.unit st.other).phase = .idle ∧ (t.station st.other).lastOutcome = some
              { outcome := .refused, why := some why, slot := q'.slot, source := q'.source,
                priority := q'.priority }) ∧
          (s.claimingRefusal st.other y.pattern = none →
            ((∃ c ∈ y.pattern.listed, (s.row c).claim ≠ .none ∧
                ((s.row c).claim = .tu st → s.inMotion c = true)) →
              s.sameUnit t st.other) ∧
            ((∀ c ∈ y.pattern.listed, (s.row c).claim = .none ∨
                ((s.row c).claim = .tu st ∧ s.inMotion c = false)) →
              (t.unit st.other).waiting = false ∧
              ((t.unit st.other).phase = .muting ∨ (t.unit st.other).phase.drives = true →
                ∀ c ∈ y.pattern.listed, (t.row c).claim = .tu st.other)))))

/-- R108, R109, R71 to R73, R76, R77, R88, R106, R112: CONTINUE and the end of the hold limit take a HELD transition
up again at its stage, without a hold test: the contactors of the stage away from their positions are submitted to
the arbiter and are the outstanding set, and the first submission makes the station MOVING, its fault reason field
kept (log entry 16). A stage with none is passed over, one with contactors that have drifted extends the moving and
muted sets, one in a breach defers its submission, and after the last stage comes the RESTORE check. CONTINUE of a
station whose unit is not HELD, or is closing, is answered WRONG_STATE; the end of the hold limit raises
HOLD_EXPIRED. A pulse granted in it is granted by R89 and R91, and counts for its unit's ending (R118). The model's
own in it: log entries 1, 14, 15 and 16. -/
def Obligations.HeldTransitionGoesOn : Prop :=
  ∀ (dt : Nat) (b : Byte) (s : State),
    (s.takes .continueHeld [b] → s.settled →
      (stationOf b.toNat = none →
        exec (.continueHeld dt [b]) s = .next
          (s.answered dt .continueHeld ⟨.fieldError, [0]⟩)) ∧
      (∀ st, stationOf b.toNat = some st →
        (s.unit st).phase ≠ .held ∨ (s.unit st).closing ≠ none →
        exec (.continueHeld dt [b]) s = .next
          (s.answered dt .continueHeld ⟨.wrongState, []⟩))) ∧
    (∀ (st : Station) (n : Nat) (x : Snapshot),
      (s.unit st).phase = .held → (s.unit st).closing = none → (s.unit st).stage = some (n + 1) →
      (s.unit st).target = some x → s.nothingWaits →
      (s.takes .continueHeld [b] → stationOf b.toNat = some st →
        ∃ t, exec (.continueHeld dt [b]) s = .next t ∧ t.now = s.now + dt ∧ s.sameSensed t ∧
          (s.updUnit st fun u => { u with phase := .driving, heldBy := none, timer := none }).stageStarts t
            st x (n + 1) true) ∧
      (∀ e, (s.unit st).timer = some e →
        ∃ t, exec (.holdLimitExpiry dt st) s = .next t ∧ t.now = max (s.now + dt) e ∧
          t.attention[(11 : Fin 16)].latched = true ∧ s.sameSensed t ∧
          (s.updUnit st fun u => { u with phase := .driving, heldBy := none, timer := none }).stageStarts t
            st x (n + 1) true)) ∧
    (∀ (st : Station) (n : Nat) (x : Snapshot) (stage : List Setting) (subset : List (Fin 48)),
      (s.unit st).phase = .held → (s.unit st).closing = none → (s.unit st).stage = some (n + 1) →
      (s.unit st).target = some x → x.pattern.stages[n]? = some stage →
      subset = s.stageSubset stage → subset ≠ [] → (∀ c ∈ subset, c ∈ (s.unit st).moving) →
      (s.unit st).breach = none →
      (s.takes .continueHeld [b] → stationOf b.toNat = some st →
        ∃ t, exec (.continueHeld dt [b]) s = .next t ∧
          t.unit st = { s.unit st with
            phase := .driving, heldBy := none, timer := none, outstanding := subset,
            moving := contactorSet fun c => (s.unit st).moving.contains c,
            deferred := none, submitted := true, drove := (s.unit st).drove || s.grantedTo t st } ∧
          t.station st =
            (if (s.unit st).submitted then s.station st
             else { s.station st with arrayState := .moving,
                                      prior := some ((s.station st).arrayState, (s.station st).faultReason) }) ∧
          t.station st.other = s.station st.other ∧ t.attention = s.attention ∧
          (∀ priority, (s.unit st).priority = some priority →
            (∀ c ∈ subset, (s.row c).claim = .tu st ∧ s.inMotion c = false) →
            s.takesEntries t (s.submission st x priority subset)) ∧
          s.sameRecords t ∧ s.sameSensed t ∧
          t.link = (s.answered dt .continueHeld ⟨.ok, []⟩).link) ∧
      (∀ e, (s.unit st).timer = some e →
        ∃ t, exec (.holdLimitExpiry dt st) s = .next t ∧ t.now = max (s.now + dt) e ∧
          t.unit st = { s.unit st with
            phase := .driving, heldBy := none, timer := none, outstanding := subset,
            moving := contactorSet fun c => (s.unit st).moving.contains c,
            deferred := none, submitted := true, drove := (s.unit st).drove || s.grantedTo t st } ∧
          t.station st =
            (if (s.unit st).submitted then s.station st
             else { s.station st with arrayState := .moving,
                                      prior := some ((s.station st).arrayState, (s.station st).faultReason) }) ∧
          t.station st.other = s.station st.other ∧
          (∀ priority, (s.unit st).priority = some priority →
            (∀ c ∈ subset, (s.row c).claim = .tu st ∧ s.inMotion c = false) →
            s.takesEntries t (s.submission st x priority subset)) ∧
          t.attention = (s.raise (.holdExpired st (s.unit st).heldBy (s.unit st).stage)).attention ∧
          s.sameRecords t ∧ s.sameSensed t ∧ t.link = s.link))

/-! ### Carrier permission and manual moves -/

/-- R49, R50: CARRIER_HOLD adds HOST-HOLD to the station's mute claims, also one held already, and CARRIER_RELEASE
removes it; each answers the claims. CARRIER_RELEASE without the claim is answered WRONG_STATE. No transition and no
position changes. A pulse granted in it counts for its unit's ending (R118). The model's own in it: log entry 17. -/
def Obligations.CarrierHoldAndRelease : Prop :=
  ∀ (dt : Nat) (b : Byte) (s : State), s.settled →
    (s.takes .carrierHold [b] →
      (stationOf b.toNat = none →
        exec (.carrierHold dt [b]) s = .next (s.answered dt .carrierHold ⟨.fieldError, [0]⟩)) ∧
      (∀ st, stationOf b.toNat = some st →
        ∃ t, exec (.carrierHold dt [b]) s = .next t ∧
          t.station st = { s.station st with
            claims := { (s.station st).claims with hostHold := true } } ∧
          t.station st.other = s.station st.other ∧ (t.station st).permit = false ∧
          (∀ u, s.sameUnit t u) ∧ t.attention = s.attention ∧
          s.sameRecords t ∧ s.sameSensed t ∧
          t.link = (s.answered dt .carrierHold
            ⟨.ok, u8 { (s.station st).claims with hostHold := true }.code⟩).link)) ∧
    (s.takes .carrierRelease [b] →
      (stationOf b.toNat = none →
        exec (.carrierRelease dt [b]) s = .next
          (s.answered dt .carrierRelease ⟨.fieldError, [0]⟩)) ∧
      (∀ st, stationOf b.toNat = some st →
        ((s.station st).claims.hostHold = false →
          exec (.carrierRelease dt [b]) s = .next
            (s.answered dt .carrierRelease ⟨.wrongState, []⟩)) ∧
        ((s.station st).claims.hostHold = true →
          ∃ t, exec (.carrierRelease dt [b]) s = .next t ∧
            t.station st = { s.station st with
              claims := { (s.station st).claims with hostHold := false } } ∧
            t.station st.other = s.station st.other ∧ t.units = s.units ∧ t.rows = s.rows ∧
            t.arbiter = s.arbiter ∧ t.attention = s.attention ∧ s.sameRecords t ∧
            t.link = (s.answered dt .carrierRelease
              ⟨.ok, u8 { (s.station st).claims with hostHold := false }.code⟩).link)))

/-- R99: the first failing check of MANUAL_MOVE is the response and changes nothing else. -/
def Obligations.ManualMoveRefusedInOrder : Prop :=
  ∀ (dt : Nat) (a b : Byte) (s : State), s.takes .manualMove [a, b] → s.settled →
    (47 < a.toNat ∨ (b.toNat ≠ 1 ∧ b.toNat ≠ 2) →
      exec (.manualMove dt [a, b]) s = .next (s.answered dt .manualMove ⟨.fieldError, [0]⟩)) ∧
    (∀ (c : Fin 48) (p : Position), a.toNat = c.val → positionOf b.toNat = some p →
      ((s.row c).path = none →
        exec (.manualMove dt [a, b]) s = .next (s.answered dt .manualMove ⟨.wrongState, []⟩)) ∧
      (∀ path, (s.row c).path = some path →
        ((s.row c).condition = .conflict →
          exec (.manualMove dt [a, b]) s = .next
            (s.answered dt .manualMove ⟨.contactorFault, u8 c.val⟩)) ∧
        ((s.row c).condition ≠ .conflict → (s.row c).claim ≠ .none ∨ s.manual ≠ none →
          exec (.manualMove dt [a, b]) s = .next (s.answered dt .manualMove ⟨.busy, []⟩)) ∧
        ((s.row c).condition ≠ .conflict → (s.row c).claim = .none → s.manual = none →
          (s.siteCommitRunning = true →
            exec (.manualMove dt [a, b]) s = .next
              (s.answered dt .manualMove ⟨.committing, []⟩)) ∧
          (s.siteCommitRunning = false →
            ((∃ st, path.has st = true ∧
                ((s.station st).claims.hostHold = false ∨ (s.station st).carrier = true)) →
              exec (.manualMove dt [a, b]) s = .next
                (s.answered dt .manualMove ⟨.notPermitted, []⟩)) ∧
            ((∀ st, path.has st = true →
                (s.station st).claims.hostHold = true ∧ (s.station st).carrier = false) →
              s.standsAt c p = true →
              exec (.manualMove dt [a, b]) s = .next
                (s.answered dt .manualMove ⟨.wrongState, []⟩))))))

/-- R100, R88, R91: a MANUAL_MOVE that passes is ACCEPTED in one event: the contactor's claim becomes MANUAL,
FAULT is placed on the stations of its path whose pattern in service lists it at the other position, the move
is in flight, and its pulse is granted where a place is free and queued otherwise. -/
def Obligations.ManualMoveAccepted : Prop :=
  ∀ (dt : Nat) (a b : Byte) (c : Fin 48) (p : Position) (path : Path) (s : State),
    s.takes .manualMove [a, b] → s.settled → a.toNat = c.val → positionOf b.toNat = some p →
    (s.row c).path = some path → s.moveRefusal c p = none → s.inMotion c = false →
    ∃ t, exec (.manualMove dt [a, b]) s = .next t ∧ t.manual = some ⟨c, p⟩ ∧
      (∀ st, t.station st =
        if path.has st && (s.inServiceLists st c).any (fun q => q ≠ p) then
          { s.station st with claims := { (s.station st).claims with fault := true } }
        else s.station st) ∧
      (∀ d, d ≠ c → t.row d = s.row d) ∧ (t.row c).claim = .manual ∧
      (s.arbiter.pulses.length < s.tables.site.concurrency →
        (t.row c).commanded = some p ∧ t.arbiter.queue = s.arbiter.queue ∧
        t.arbiter.pulses = s.arbiter.pulses ++
          [⟨⟨c, p, .manual, .commanded, s.arbiter.nextArrival, false⟩, s.now + dt,
            some (s.now + dt + s.tables.site.coilPulse),
            s.now + dt + s.tables.site.travelLimit⟩]) ∧
      (s.tables.site.concurrency ≤ s.arbiter.pulses.length →
        (t.row c).commanded = (s.row c).commanded ∧ t.arbiter.pulses = s.arbiter.pulses ∧
        t.arbiter.queue = insertEntry ⟨c, p, .manual, .commanded, s.arbiter.nextArrival, false⟩
          s.arbiter.queue) ∧
      t.arbiter.nextArrival = s.arbiter.nextArrival + 1 ∧ t.units = s.units ∧
      t.attention = s.attention ∧ s.sameRecords t ∧ s.sameSensed t ∧
      t.link = (s.answered dt .manualMove ⟨.accepted, []⟩).link

/-! ### The contactor table and coil motion -/

/-- R8, R9: the reset scan takes every raw reading at once; a later scan that accepts no change leaves each raw
reading that differs from the sensed value as the row's candidate, and drops the others. The next scan is due 10 ms
later. The model's own in it: log entry 1. -/
def Obligations.ScansTakeReadings : Prop :=
  ∀ (dt : Nat) (contacts : List (Bool × Bool)) (order : List (Fin 48)) (now : Nat) (s : State),
    now = max (s.now + dt) s.scan.due →
    (s.scan.resetDone = false →
      exec (.feedbackScan dt contacts order) s = .next
        { s with
          now := now, scan := ⟨true, now + 10⟩
          rows := Vector.ofFn fun c : Fin 48 =>
            { s.rows[c] with sensed := placeReading contacts c, candidate := none } }.drivePins) ∧
    (s.scan.resetDone = true → (∀ c, ¬ s.accepts contacts c) →
      exec (.feedbackScan dt contacts order) s = .next
        { s with
          now := now, scan := ⟨true, now + 10⟩
          rows := Vector.ofFn fun c : Fin 48 =>
            { s.rows[c] with
              candidate := s.rows[c].candidateAfter (placeReading contacts c) } }.drivePins) ∧
    (∀ c : Fin 48, placeReading contacts c =
      match contacts[c.val]? with
      | some (true, false) => .at1
      | some (false, true) => .at2
      | some (true, true) => .conflict
      | some (false, false) | none => .between)

/-- R9 to R14, R17, R46, R92, R96, R74, R101, R116 to R118: a scan that accepts the change of one row takes its
reading. A row that is not configured, or is in CONFLICT, is left at that. A change that no pulse explains is a
drift: condition DRIFTED unless STUCK, CONTACTOR_FAULT, and a DRIFT fault for each station of the path that relies
on the contactor. A change to CONFLICT gives the condition CONFLICT, CONTACTOR_FAULT, and a CONFLICT fault for every
station of the path; it ends the contactor's pulse, the transition that claims the contactor closes with cause
STUCK, one already closing goes on to its end, and a manual move ends. A queued contactor found at its target leaves
the queue without a pulse, its counts and condition as they were, and its owner takes the arrival. A fault handed to
a station acts by its table. A pulse granted in it counts for its unit's ending (R118). The model's own in it: log
entries 1, 13 to 16 and 30. -/
def Obligations.AcceptedChangeFollowsItsKind : Prop :=
  (∀ (dt : Nat) (contacts : List (Bool × Bool)) (order : List (Fin 48)) (c : Fin 48) (raw : Sensed)
      (s : State),
    s.scan.resetDone = true → raw = placeReading contacts c → s.accepts contacts c →
    (∀ d, d ≠ c → ¬ s.accepts contacts d) →
    ∃ t, exec (.feedbackScan dt contacts order) s = .next t ∧
      (∀ d, d ≠ c → (t.row d).sensedSide =
        { s.row d with
          candidate := (s.row d).candidateAfter (placeReading contacts d) }.sensedSide) ∧
      (t.row c).sensed = raw ∧ (t.row c).candidate = none ∧ (t.row c).path = (s.row c).path ∧
      ((s.row c).path = none ∨ ((s.row c).condition = .conflict ∧ raw ≠ .conflict) →
        (t.row c).sensedSide = { s.row c with sensed := raw, candidate := none }.sensedSide ∧
        t.stations = s.stations ∧ t.attention = s.attention) ∧
      (∀ path, (s.row c).path = some path → (s.row c).condition ≠ .conflict → raw ≠ .conflict →
        s.inMotion c = false →
        (t.row c).sensedSide = { s.row c with
          sensed := raw, candidate := none,
          condition := if (s.row c).condition = Condition.stuck then Condition.stuck else .drifted }.sensedSide ∧
        t.attention = (s.raise (.contactorFault c .drifted)).attention ∧
        ∀ st, t.station st =
          if path.has st && ((s.inServiceLists st c).isSome || (s.station st).permit) then
            (s.station st).takeFault .drift
          else s.station st) ∧
      (∀ path, (s.row c).path = some path → raw = .conflict → s.inMotion c = false →
        (s.row c).claim = .none →
        (t.row c).sensedSide = { s.row c with
          sensed := raw, candidate := none, condition := .conflict }.sensedSide ∧
        t.attention = (s.raise (.contactorFault c .conflict)).attention ∧
        ∀ st, t.station st =
          if path.has st then (s.station st).takeFault .conflict else s.station st)) ∧
  (∀ (dt now : Nat) (contacts : List (Bool × Bool)) (order : List (Fin 48)) (c : Fin 48) (raw : Sensed)
      (path : Path) (s : State),
    s.scan.resetDone = true → raw = placeReading contacts c → s.accepts contacts c →
    (∀ d, d ≠ c → ¬ s.accepts contacts d) → (s.row c).path = some path →
    (s.row c).condition ≠ .conflict → s.nothingWaits → now = max (s.now + dt) s.scan.due →
    (∀ q, s.pulseOf c = none → s.queuedOf c = some q → raw = q.target.sensed →
      ∃ t, exec (.feedbackScan dt contacts order) s = .next t ∧ t.now = now ∧
        (t.row c).sensedSide = { s.row c with sensed := raw, candidate := none }.sensedSide ∧
        ({ s with
          scan := ⟨true, now + 10⟩
          rows := s.rows.set c { s.row c with sensed := raw, candidate := none }
          arbiter := { s.arbiter with
            queue := s.arbiter.queue.filter fun x => x.contactor ≠ c } } : State).arrived t q.owner c) ∧
    (∀ s' : State, raw = .conflict → s.pulseOf c = none ∨ s.queuedOf c = none →
      s' = { s with
        scan := ⟨true, now + 10⟩
        rows := s.rows.set c { s.row c with sensed := raw, candidate := none, condition := .conflict }
        stations := ⟨if path.has .A then s.stations.a.takeFault .conflict else s.stations.a,
          if path.has .B then s.stations.b.takeFault .conflict else s.stations.b⟩
        arbiter := { s.arbiter with
          queue := s.arbiter.queue.filter fun x => x.contactor ≠ c
          pulses := s.arbiter.pulses.filter fun x => x.entry.contactor ≠ c } } →
      ∃ t, exec (.feedbackScan dt contacts order) s = .next t ∧ t.now = now ∧
        t.inMotion c = false ∧ t.attention[(1 : Fin 16)].latched = true ∧
        (∀ st, path.has st = true →
          (t.station st).arrayState = .faulted ∧ (t.station st).claims.fault = true) ∧
        (∀ u, (s.row c).claim = .tu u → (s.row c).releaseDue = false →
          (∀ p, s.pulseOf c = some p → p.entry.owner = .tu u) →
          (∀ q, s.queuedOf c = some q → q.owner = .tu u) →
          (s.unit u).phase = .muting ∨ (s.unit u).phase = .driving ∨ (s.unit u).phase = .held →
          (s.unit u).closing = none → s'.startsClosing t u .stuck) ∧
        (∀ u p cause, (s.row c).claim = .tu u → s.pulseOf c = some p → p.entry.owner = .tu u →
          (s.unit u).closing = some cause → c ∈ (s.unit u).outstanding →
          ((s.row c).releaseDue = true → t.inMotion c = false → (t.row c).claim = .none) ∧
          ((∃ d ∈ (s.unit u).outstanding, d ≠ c) →
            t.unit u = { s.unit u with
              outstanding := (s.unit u).outstanding.filter fun d => d ≠ c,
              drove := (s.unit u).drove || s'.grantedTo t u }) ∧
          (∀ q, (∀ d ∈ (s.unit u).outstanding, d = c) → (s.unit u).request = some q →
            s'.ended t u q ((s.unit u).closesAs cause) cause.why ∧
            ((∀ f, s.monitor.failures.get u = some f → f.running = false) →
              s'.arrayEnded t u ((s.unit u).closesAs cause) cause.why))) ∧
        ((s.row c).claim = .manual → (∀ p, s.pulseOf c = some p → p.entry.owner = .manual) →
          (∀ q, s.queuedOf c = some q → q.owner = .manual) →
          t.manual = none ∧ (t.row c).claim = .none))) ∧
  (∀ (reason : FaultReason) (r : StationRecord),
    (r.arrayState = .unset ∨ r.arrayState = .inPattern → r.takeFault reason =
      { r with arrayState := .faulted, faultReason := some reason,
               claims := { r.claims with fault := true } }) ∧
    (r.arrayState = .moving → r.takeFault reason =
      { r with arrayState := .faulted, faultReason := some reason, prior := none,
               claims := { r.claims with fault := true } }) ∧
    (r.arrayState = .faulted → r.takeFault reason =
      { r with claims := { r.claims with fault := true } }) ∧
    (r.arrayState = .mixed → r.takeFault reason =
      { r with arrayState := .faulted, faultReason := some (r.faultReason.getD reason),
               claims := { r.claims with fault := true } }))

/-- R93, R17, R19, R20, R98, R73, R74, R76, R77, R56, R101, R117, R118: the accepted change of a contactor to the
target of its pulse confirms it: travel rounded up to a whole 10 ms, SLOW above the threshold, the counts, the
maintenance mark, and HOT_MOVE where carrier was on. The pulse is finished and its owner takes the arrival: the
contactor leaves outstanding and joins the moved list; the last of a stage starts the next stage, or after the last
stage the RESTORE check, which puts the pattern in service, records the saved in-service and requests an OPS_SAVE,
or ends the transition for a contactor astray; the last of a closing transition ends it; a manual move ends. A pulse
granted in it is granted by R89 and R91, and counts for its unit's ending (R118). The model's own in it: log entries
1, 14 to 16 and 30, and log entry 33 where a pulse is confirmed after its travel limit. -/
def Obligations.ConfirmedMoveUpdatesTheRow : Prop :=
  ∀ (dt : Nat) (contacts : List (Bool × Bool)) (order : List (Fin 48)) (c : Fin 48) (p : Pulse)
    (path : Path) (travel operations : Nat) (hot : StationSet) (s : State),
    s.scan.resetDone = true → s.accepts contacts c → (∀ d, d ≠ c → ¬ s.accepts contacts d) →
    s.pulseOf c = some p → placeReading contacts c = p.entry.target.sensed →
    (s.row c).path = some path → (s.row c).condition ≠ .conflict →
    travel = (max (s.now + dt) s.scan.due - p.granted + 9) / 10 * 10 →
    operations = min 4294967295 ((s.row c).operations + 1) →
    hot = StationSet.union (s.row c).hotMark (s.carriersOn path) →
    ∃ t, exec (.feedbackScan dt contacts order) s = .next t ∧
      (t.row c).path = some path ∧ (t.row c).sensed = p.entry.target.sensed ∧
      (t.row c).candidate = none ∧ (t.row c).lastTravel = some travel ∧
      (t.row c).condition =
        (if (s.row c).condition = .stuck then Condition.stuck
         else if s.tables.site.slowThreshold < travel then .slow else .normal) ∧
      (t.row c).operations = operations ∧
      (t.row c).hotMoves =
        (if hot.isEmpty then (s.row c).hotMoves else min 65535 ((s.row c).hotMoves + 1)) ∧
      (t.row c).maintenance = ((s.row c).maintenance ||
        decide (s.tables.site.maintenance ≠ 0 ∧ s.tables.site.maintenance ≤ operations)) ∧
      (hot.isEmpty = false → t.attention[(5 : Fin 16)].latched = true) ∧
      (∀ d, d ≠ c → (t.row d).sensedSide =
        { s.row d with
          candidate := (s.row d).candidateAfter (placeReading contacts d) }.sensedSide) ∧
      (s.nothingWaits → t.now = max (s.now + dt) s.scan.due ∧
        ({ s with
          scan := ⟨true, max (s.now + dt) s.scan.due + 10⟩
          rows := s.rows.set c { s.row c with sensed := p.entry.target.sensed, candidate := none }
          arbiter := { s.arbiter with
            pulses := s.arbiter.pulses.filter fun x => x.entry.contactor ≠ c } } : State).arrived t
          p.entry.owner c)

/-- R41, R42, R69, R71 to R74, R76, R77, R88, R98, R106, R110 to R113: a carrier change accepted. That a level that
stands already changes nothing but the time is the model's choice (log entry 2). To on: a unit that drives through
the station starts a breach wait, pulses in the station's path are marked hot and the station is faulted for them,
and CARRIER_BREACH is raised. To off: a unit in MUTING whose muted stations are now all off starts its first stage,
submitting its contactors to the arbiter, stopping at a hold point, or passing over stages that stand already; one
in a breach wait ends the wait and submits what it deferred, as far as it is still away from its position; no other
unit takes the change. Where both units await the change each takes it, in a free order (log entry 8), the second as
the first leaves the machine. A pulse granted in it is granted by R89 and R91, and counts for its unit's ending
(R118). The model's own in it: log entries 2, 8 and 14 to 16. -/
def Obligations.CarrierChangesAccepted : Prop :=
  ∀ (dt : Nat) (st : Station) (s : State),
    (∀ on, (s.station st).carrier = on →
      exec (.carrierChangeAccepted dt st on) s = .next (s.elapse dt).drivePins) ∧
    ((s.station st).carrier = false → s.settled →
      ∃ t, exec (.carrierChangeAccepted dt st true) s = .next t ∧
        t.station st = (if s.pulseInPath st then
            StationRecord.takeFault .breach { s.station st with carrier := true }
          else { s.station st with carrier := true }) ∧
        t.station st.other = s.station st.other ∧
        (∀ u, t.unit u =
          if (s.unit u).phase.drives && (s.unit u).closing.isNone && (s.unit u).muted.get st then
            { s.unit u with breach := some ((s.unit u).breach.getD
                (s.now + dt + 1000 * s.tables.site.carrierOffWait)) }
          else s.unit u) ∧
        (∀ c, t.row c = if (s.pulseOf c).isSome && (s.row c).path.any (fun p => p.has st) then
          { s.row c with hotMark := (s.row c).hotMark.set st true } else s.row c) ∧
        t.attention =
          (if ([Station.A, Station.B].any fun u => (s.unit u).phase.drives && (s.unit u).muted.get st) ||
              s.pulseInPath st then
            s.raise (.carrierBreach st ⟨s.units.a.muted.get st, s.units.b.muted.get st⟩
              (s.pulseInPath st))
          else s).attention ∧
        t.arbiter = s.arbiter ∧ s.sameRecords t) ∧
    (∀ u x s', (s.station st).carrier = true → s.awaitsCarrier st u = true →
      s.awaitsCarrier st u.other = false → s.nothingWaits → (s.unit u).target = some x →
      (∀ w, (s.unit u).muted.get w = true → w ≠ st → (s.station w).carrier = false) →
      s' = s.updStation st (fun r => { r with carrier := false }) →
      ∃ t, exec (.carrierChangeAccepted dt st false) s = .next t ∧ t.now = s.now + dt ∧ s.sameSensed t ∧
        s'.takesCarrierOff t u x ∧ s'.sameUnit t u.other) ∧
    (∀ s', (s.station st).carrier = true → (∀ u, s.awaitsCarrier st u = true) → s.nothingWaits →
      s' = s.updStation st (fun r => { r with carrier := false }) →
      ∃ t, exec (.carrierChangeAccepted dt st false) s = .next t ∧ (t.station st).carrier = false ∧
        s.sameSensed t ∧
        (∀ u, (s.unit u).phase = .muting →
          (∀ w, (s.unit u).muted.get w = true → w ≠ st → (s.station w).carrier = false) →
          (t.unit u).phase ≠ .muting) ∧
        ∃ u m, m.now = s.now + dt ∧ t.now = s.now + dt ∧
          (∀ x, (s.unit u).target = some x → s'.takesCarrierOff m u x) ∧ s'.sameUnit m u.other ∧
          (∀ x, (s.unit u.other).target = some x → m.takesCarrierOff t u.other x) ∧ m.sameUnit t u) ∧
    ((s.station st).carrier = true → (∀ u, s.awaitsCarrier st u = false) →
      ∃ t, exec (.carrierChangeAccepted dt st false) s = .next t ∧
        t.station st = { s.station st with carrier := false } ∧
        t.station st.other = s.station st.other ∧
        (∀ u, s.sameUnit t u) ∧ t.attention = s.attention ∧
        s.sameRecords t ∧ s.sameSensed t) ∧
    (∀ u, (s.station st).carrier = true → s.awaitsCarrier st u = true →
      s.awaitsCarrier st u.other = false →
      (∀ w, (s.unit u).muted.get w = true → w ≠ st → (s.station w).carrier = true →
        ∃ t, exec (.carrierChangeAccepted dt st false) s = .next t ∧
          s.sameUnit t u ∧ t.attention = s.attention ∧
          s.sameRecords t ∧ s.sameSensed t) ∧
      ((∀ w, (s.unit u).muted.get w = true → w ≠ st → (s.station w).carrier = false) →
        (∀ target stage rest subset, (s.unit u).phase = .muting → (s.unit u).breach = none →
          (s.unit u).target = some target → target.pattern.stages = stage :: rest →
          subset = s.stageSubset stage → subset ≠ [] → (∀ c ∈ subset, c ∈ (s.unit u).moving) →
          (s.unit u).priority = some .protective ∨ s.holdFor u 1 subset = none →
          ∃ t, exec (.carrierChangeAccepted dt st false) s = .next t ∧
            t.unit u = { s.unit u with
              phase := .driving, timer := none, stage := some 1, outstanding := subset,
              moving := contactorSet fun c => (s.unit u).moving.contains c,
              deferred := none, submitted := true, drove := (s.unit u).drove || s.grantedTo t u } ∧
            ((s.unit u).submitted = false → (t.station u).arrayState = .moving) ∧
            t.attention = s.attention ∧ s.sameRecords t ∧ s.sameSensed t) ∧
        (∀ target stage rest subset point, (s.unit u).phase = .muting → (s.unit u).breach = none →
          (s.unit u).target = some target → target.pattern.stages = stage :: rest →
          subset = s.stageSubset stage → subset ≠ [] → (∀ c ∈ subset, c ∈ (s.unit u).moving) →
          (s.unit u).priority ≠ some .protective → s.holdFor u 1 subset = some point →
          ∃ t, exec (.carrierChangeAccepted dt st false) s = .next t ∧
            t.unit u = { s.unit u with
              phase := .held, timer := some (s.now + dt + 60000 * s.tables.site.holdLimit),
              stage := some 1, heldBy := some point,
              moving := contactorSet fun c => (s.unit u).moving.contains c,
              drove := (s.unit u).drove || s.grantedTo t u } ∧
            t.attention = (s.raise (.holdReached u point 1 (some target.slot))).attention ∧
            s.sameRecords t ∧ s.sameSensed t) ∧
        ((s.unit u).phase = .held ∨ ((s.unit u).phase = .driving ∧ (s.unit u).deferred = none) →
          ∃ t, exec (.carrierChangeAccepted dt st false) s = .next t ∧
            t.unit u = { s.unit u with breach := none, drove := (s.unit u).drove || s.grantedTo t u } ∧
            t.attention = s.attention ∧ s.sameRecords t ∧ s.sameSensed t)))

/-- R91, R94, R95, R97, R116 to R118, R48: the end of the coil pulse length switches the drive off; the first expiry
of a travel limit queues the contactor again as try 2 and tells no one, but of a closing transition's pulse it takes
the contactor out of outstanding and is not queued again; the second makes the row STUCK unless it is in CONFLICT,
raises CONTACTOR_FAULT, faults every station of the path, and ends a manual move or closes the transition, at once
where no other pulse of it is in progress. The last pulse of a closing transition ends it by its cause. Each leaves
a contactor without such a pulse alone, which is the model's choice (log entry 2). A pulse granted in it is granted
by R89 and R91, and counts for its unit's ending (R118). The model's own in it: log entries 1, 2, 13 and 15. -/
def Obligations.PulseTimersRunOut : Prop :=
  ∀ (dt : Nat) (c : Fin 48) (s : State),
    (∀ p e, s.pulseOf c = some p → p.driveEnd = some e →
      exec (.coilDriveEnd dt c) s = .next
        { s with
          now := max (s.now + dt) e
          arbiter := { s.arbiter with pulses := s.arbiter.pulses.map fun (x : Pulse) =>
            if x.entry.contactor = c then { x with driveEnd := none } else x } }.drivePins) ∧
    ((s.pulseOf c).bind Pulse.driveEnd = none →
      exec (.coilDriveEnd dt c) s = .next (s.elapse dt).drivePins) ∧
    ((∀ p, s.pulseOf c = some p → p.entry.second = true) →
      exec (.travelLimitRetry dt c) s = .next (s.elapse dt).drivePins) ∧
    ((∀ p, s.pulseOf c = some p → p.entry.second = false) →
      exec (.travelLimitStuck dt c) s = .next (s.elapse dt).drivePins) ∧
    (∀ p s', s.pulseOf c = some p → p.entry.second = false → s.queuedOf c = none →
      (∀ u, p.entry.owner = .tu u → (s.unit u).closing = none) →
      s' = { s with arbiter := { s.arbiter with
        pulses := s.arbiter.pulses.filter fun x => x.entry.contactor ≠ c } } →
      ∃ t q, exec (.travelLimitRetry dt c) s = .next t ∧ t.now = max (s.now + dt) p.travelEnd ∧
        q = (⟨c, p.entry.target, p.entry.owner, p.entry.priority, s.arbiter.nextArrival, true⟩ :
          QueueEntry) ∧
        s'.takesEntries t [q] ∧
        (∀ d, (t.row d).claim = (s.row d).claim) ∧ t.stations = s.stations ∧
        t.attention = s.attention ∧ (∀ u, s'.sameUnit t u) ∧
        s.sameRecords t ∧ s.sameSensed t) ∧
    (∀ p u cause s', s.pulseOf c = some p → p.entry.second = false → p.entry.owner = .tu u →
      (s.unit u).closing = some cause → c ∈ (s.unit u).outstanding → s.nothingWaits →
      s' = { s with arbiter := { s.arbiter with
        pulses := s.arbiter.pulses.filter fun x => x.entry.contactor ≠ c } } →
      ∃ t, exec (.travelLimitRetry dt c) s = .next t ∧ t.now = max (s.now + dt) p.travelEnd ∧
        (∀ x ∈ t.arbiter.queue, x ∈ s.arbiter.queue) ∧ s.sameSensed t ∧ s.sameRecords t ∧
        ((s.row c).releaseDue = true → t.inMotion c = false → (t.row c).claim = .none) ∧
        ((∃ d ∈ (s.unit u).outstanding, d ≠ c) →
          t.unit u = { s.unit u with
            outstanding := (s.unit u).outstanding.filter fun d => d ≠ c,
            drove := (s.unit u).drove || s'.grantedTo t u } ∧
          t.stations = s.stations ∧ t.attention = s.attention) ∧
        (∀ q, (∀ d ∈ (s.unit u).outstanding, d = c) → (s.unit u).request = some q →
          s'.ended t u q ((s.unit u).closesAs cause) cause.why ∧
          ((∀ f, s.monitor.failures.get u = some f → f.running = false) →
            s'.arrayEnded t u ((s.unit u).closesAs cause) cause.why))) ∧
    (∀ p path u s', s.pulseOf c = some p → p.entry.second = true → (s.row c).path = some path →
      s.nothingWaits → p.entry.owner = .tu u →
      s' = { s with
        rows := s.rows.set c { s.row c with
          condition := if (s.row c).condition = Condition.conflict then Condition.conflict else .stuck }
        stations := ⟨if path.has .A then s.stations.a.takeFault .stuck else s.stations.a,
          if path.has .B then s.stations.b.takeFault .stuck else s.stations.b⟩
        arbiter := { s.arbiter with
          pulses := s.arbiter.pulses.filter fun x => x.entry.contactor ≠ c } } →
      ∃ t, exec (.travelLimitStuck dt c) s = .next t ∧
        ((s.unit u).phase.drives = true → (s.unit u).closing = none → (s.row c).releaseDue = false →
          s'.startsClosing t u .stuck) ∧
        (∀ cause, (s.unit u).closing = some cause → c ∈ (s.unit u).outstanding →
          ((s.row c).releaseDue = true → t.inMotion c = false → (t.row c).claim = .none) ∧
          ((∃ d ∈ (s.unit u).outstanding, d ≠ c) →
            t.unit u = { s.unit u with
              outstanding := (s.unit u).outstanding.filter fun d => d ≠ c,
              drove := (s.unit u).drove || s'.grantedTo t u }) ∧
          (∀ q, (∀ d ∈ (s.unit u).outstanding, d = c) → (s.unit u).request = some q →
            s'.ended t u q ((s.unit u).closesAs cause) cause.why ∧
            ((∀ f, s.monitor.failures.get u = some f → f.running = false) →
              s'.arrayEnded t u ((s.unit u).closesAs cause) cause.why)))) ∧
    (∀ p path, s.pulseOf c = some p → p.entry.second = true → (s.row c).path = some path →
      s.nothingWaits →
      ∃ t, exec (.travelLimitStuck dt c) s = .next t ∧ t.now = max (s.now + dt) p.travelEnd ∧
        (t.row c).sensedSide = { s.row c with
          condition := if (s.row c).condition = Condition.conflict then Condition.conflict else .stuck }.sensedSide ∧
        (∀ d, d ≠ c → (t.row d).sensedSide = (s.row d).sensedSide) ∧
        t.attention[(1 : Fin 16)].latched = true ∧
        (∀ st, path.has st = true →
          (t.station st).arrayState = .faulted ∧ (t.station st).claims.fault = true) ∧
        (p.entry.owner = .manual → t.manual = none) ∧
        (∀ u q, p.entry.owner = .tu u → (s.unit u).phase.drives = true → (s.unit u).closing = none →
          (s.unit u).request = some q → s.pulsesOf (.tu u) = [c] →
          ({ s with arbiter := { s.arbiter with
            pulses := s.arbiter.pulses.filter fun x => x.entry.contactor ≠ c } } : State).ended t u q .failedMixed
            (some ⟨.stuck, none⟩)) ∧
        (∀ u, p.entry.owner = .tu u → (s.unit u).phase.drives = true → (s.unit u).closing = none →
          (∃ d ∈ s.pulsesOf (.tu u), d ≠ c) →
          (t.unit u).closing = some .stuck ∧ (t.unit u).phase = (s.unit u).phase ∧
          (t.unit u).outstanding = (s.pulsesOf (.tu u)).filter fun d => d ≠ c) ∧
        s.sameRecords t)

/-- R70, R80, R113, R116 to R118, R48, R123, R127: the carrier-off wait ends a transition in MUTING FAILED_NO_MOVE;
the settle timer ends one without windows COMPLETED_UNVERIFIED and takes one with windows to VERIFYING, every window
tower UNDECIDED; the verify timer ends it COMPLETED_UNVERIFIED and raises VERIFY_TIMEOUT; the breach wait closes one
in DRIVING or HELD. A timer that does not run changes nothing, which is the model's choice (log entry 2). A pulse
granted in it counts for its unit's ending (R118). The model's own in it: log entries 1, 2, 13, 15 and 40 (the marks
in the order of the target's windows). -/
def Obligations.PhaseTimersRunOut : Prop :=
  ∀ (dt : Nat) (st : Station) (s : State),
    (s.timerIn st .muting = none →
      exec (.carrierOffWaitExpiry dt st) s = .next (s.elapse dt).drivePins) ∧
    (s.timerIn st .held = none →
      exec (.holdLimitExpiry dt st) s = .next (s.elapse dt).drivePins) ∧
    (s.timerIn st .settling = none →
      exec (.settleExpiry dt st) s = .next (s.elapse dt).drivePins) ∧
    (s.timerIn st .verifying = none →
      exec (.verifyTimeout dt st) s = .next (s.elapse dt).drivePins) ∧
    ((s.unit st).breach = none →
      exec (.breachWaitExpiry dt st) s = .next (s.elapse dt).drivePins) ∧
    (∀ e q, (s.unit st).closing = none → (s.unit st).timer = some e → (s.unit st).request = some q →
      s.nothingWaits →
      ((s.unit st).phase = .muting →
        ∃ t, exec (.carrierOffWaitExpiry dt st) s = .next t ∧ t.now = max (s.now + dt) e ∧
          s.ended t st q .failedNoMove (some ⟨.carrierNotOff, none⟩) ∧
          (s.monitor.failures.get st = none → (s.station st).arrayState ≠ .moving →
            (t.station st).arrayState = (s.station st).arrayState ∧
            (t.station st).inService = (s.station st).inService ∧
            (t.station st).powerStep = (s.station st).powerStep) ∧
          ((∀ f, s.monitor.failures.get st = some f → f.running = false) →
            s.arrayEnded t st .failedNoMove (some ⟨.carrierNotOff, none⟩)) ∧
          s.sameSensed t) ∧
      (∀ x, (s.unit st).phase = .settling → (s.unit st).target = some x → x.pattern.windows = [] →
        ∃ t, exec (.settleExpiry dt st) s = .next t ∧ t.now = max (s.now + dt) e ∧
          s.ended t st q .completedUnverified (some ⟨.noWindows, none⟩) ∧
          (t.station st).inService = (s.station st).inService ∧ s.sameSensed t) ∧
      ((s.unit st).phase = .verifying →
        ∃ t, exec (.verifyTimeout dt st) s = .next t ∧ t.now = max (s.now + dt) e ∧
          s.ended t st q .completedUnverified (some ⟨.verifyTimeout, none⟩) ∧
          t.attention[(6 : Fin 16)].latched = true ∧
          (t.station st).inService = (s.station st).inService ∧ s.sameSensed t)) ∧
    (∀ e x, s.settled → (s.unit st).closing = none → (s.unit st).timer = some e →
      (s.unit st).phase = .settling → (s.unit st).target = some x → x.pattern.windows ≠ [] →
      exec (.settleExpiry dt st) s = .next
        (({ s with now := max (s.now + dt) e }.updUnit st fun u =>
          { u with phase := .verifying,
                   timer := some (max (s.now + dt) e + 1000 * s.tables.site.silenceLimit),
                   marks := x.pattern.windows.map fun (w : Window) => (w.tower, Mark.undecided) }).drivePins)) ∧
    (∀ e, (s.unit st).closing = none → (s.unit st).breach = some e → (s.unit st).phase.drives = true →
      s.nothingWaits →
      (∃ t, exec (.breachWaitExpiry dt st) s = .next t ∧ t.now = max (s.now + dt) e ∧
        s.startsClosing t st .breach ∧ s.sameSensed t) ∧
      (∀ q, (s.unit st).request = some q → s.pulsesOf (.tu st) = [] →
        ∃ t, exec (.breachWaitExpiry dt st) s = .next t ∧ t.now = max (s.now + dt) e ∧
          s.ended t st q
            (if (s.unit st).drove || !(s.unit st).moved.isEmpty then .failedMixed else .failedNoMove)
            (some ⟨.breach, none⟩) ∧
          (∀ x ∈ t.arbiter.queue, x.owner ≠ .tu st) ∧ s.sameSensed t) ∧
      (s.pulsesOf (.tu st) ≠ [] →
        ∃ t, exec (.breachWaitExpiry dt st) s = .next t ∧ t.now = max (s.now + dt) e ∧
          t.unit st = { s.unit st with
            closing := some .breach, timer := none, breach := none, heldBy := none,
            deferred := none, outstanding := s.pulsesOf (.tu st) } ∧
          (∀ x ∈ t.arbiter.queue, x.owner ≠ .tu st) ∧ s.sameRecords t ∧ s.sameSensed t))

/-! ### The monitor line -/

/-- R119, R120, R121, R131, R204: a frame is accepted when its sum is 0 and its station, tower, ratio and phase are
in range, and the station's cell takes its reading, a watched or silent cell's timer starting again; a frame that
fails, a character error and a gap of 20 ms each add one to the discard count, which stays at 65,535. Bytes make
frames: the sync byte begins one and the eighth byte after it completes it. A byte that arrives more than 20 ms
after the one before it ends the frame in progress, which is counted, and is taken as in SEEKING. A frame of a
station that neither verifies nor is supervised has no other effect. That a gap with no frame in progress changes
only the time is the model's choice (log entry 2). The model's own in it: log entries 1, 2 and 31. -/
def Obligations.MonitorReceiverTakesFrames : Prop :=
  (∀ (f : MonitorFrame) (r : Reading), frameReading f = some r ↔
    (byteSum [f.station, f.tower, f.ratioHi, f.ratioLo, f.phaseHi, f.phaseLo, f.flags, f.check] % 256 = 0 ∧
      stationOf f.station.toNat = some r.station ∧ f.tower.toNat = r.tower.val + 1 ∧
      r.ratio = 256 * f.ratioHi.toNat + f.ratioLo.toNat ∧ r.ratio ≤ 9999 ∧
      r.phase = beInt16 f.phaseHi f.phaseLo ∧ -1800 ≤ r.phase ∧ r.phase ≤ 1800 ∧
      r.valid = f.flags.getLsbD 0)) ∧
  (∀ (dt : Nat) (f : MonitorFrame) (s : State), s.settled →
    (frameReading f = none →
      exec (.monitorFrame dt f) s = .next
        { s with
          now := s.now + dt
          monitor := { s.monitor with
            rx := none, discards := min 65535 (s.monitor.discards + 1) } }.drivePins) ∧
    (∀ r, frameReading f = some r → (s.unit r.station).phase ≠ .verifying →
      s.monitor.supervised.get r.station = false →
      exec (.monitorFrame dt f) s = .next
        (({ s with now := s.now + dt, monitor := { s.monitor with rx := none } }.updCell r.station
          r.tower fun c => { c with
            ratio := some r.ratio, phase := some r.phase, valid := r.valid,
            arrival := some (s.now + dt),
            silence := if c.silence = Silence.notWatched then .notWatched
              else .watched (s.now + dt + 1000 * s.tables.site.silenceLimit) }).drivePins))) ∧
  (∀ (dt : Nat) (byte : Option Byte) (s : State),
    (s.monitor.rx = none → byte = some 0xC3 →
      exec (.monitorByteReceived dt byte) s = .next
        { s with now := s.now + dt,
                 monitor := { s.monitor with rx := some [], rxAt := s.now + dt } }.drivePins) ∧
    (s.monitor.rx = none → byte ≠ some 0xC3 →
      exec (.monitorByteReceived dt byte) s = .next (s.elapse dt).drivePins) ∧
    (∀ bytes b, s.monitor.rx = some bytes → s.now + dt ≤ s.monitor.rxAt + 20 → byte = some b →
      bytes.length < 7 →
      exec (.monitorByteReceived dt byte) s = .next
        { s with now := s.now + dt,
                 monitor := { s.monitor with
                   rx := some (bytes ++ [b]), rxAt := s.now + dt } }.drivePins) ∧
    (∀ b₁ b₂ b₃ b₄ b₅ b₆ b₇ b₈, s.monitor.rx = some [b₁, b₂, b₃, b₄, b₅, b₆, b₇] →
      s.now + dt ≤ s.monitor.rxAt + 20 → byte = some b₈ →
      exec (.monitorByteReceived dt byte) s =
        exec (.monitorFrame dt ⟨b₁, b₂, b₃, b₄, b₅, b₆, b₇, b₈⟩) s) ∧
    (∀ bytes, s.monitor.rx = some bytes → s.now + dt ≤ s.monitor.rxAt + 20 → byte = none →
      exec (.monitorByteReceived dt byte) s = .next
        { s with
          now := s.now + dt
          monitor := { s.monitor with
            rx := none, discards := min 65535 (s.monitor.discards + 1) } }.drivePins) ∧
    (∀ bytes, s.monitor.rx = some bytes → s.monitor.rxAt + 20 < s.now + dt →
      exec (.monitorByteReceived dt byte) s = .next
        { s with
          now := s.now + dt
          monitor := { s.monitor with
            rx := if byte = some 0xC3 then some [] else none
            rxAt := if byte = some 0xC3 then s.now + dt else s.monitor.rxAt
            discards := min 65535 (s.monitor.discards + 1) } }.drivePins) ∧
    (∀ bytes, s.monitor.rx = some bytes →
      exec (.monitorFrameGap dt) s = .next
        { s with
          now := max (s.now + dt) (s.monitor.rxAt + 20)
          monitor := { s.monitor with
            rx := none, discards := min 65535 (s.monitor.discards + 1) } }.drivePins) ∧
    (s.monitor.rx = none → exec (.monitorFrameGap dt) s = .next (s.elapse dt).drivePins))

/-- R122, R124 to R126, R130 to R134, R52 to R54, R60 to R66: what a reading does. A reading that is not valid is
written to its cell and judged by nothing. Under supervision, a valid reading on a window tower sets the run count
to 0 in tolerance and adds one out of it; at the tolerance run MONITOR_FAIL is raised, and the station is faulted
or, with a fallback that is usable (IN_PATTERN in a pattern not reached by protection, its fallback ACTIVE for the
station and not retiring), an open failure is recorded and a PROTECTIVE request is made for it: an IDLE unit starts
it at once, and otherwise it waits, in place of any pending request. In VERIFYING, a valid reading marks its
undecided tower, and the last one decides; VERIFY_FAILED faults the station or hands a PROTECTIVE request for the
fallback to the unit as it ends. A watched tower's timer that runs out makes it SILENT and raises MONITOR_SILENT;
that the command for one that is not watched changes only the time is the model's choice (log entry 2). A pulse
granted in it counts for its unit's ending (R118). The model's own in it: log entries 1 and 2. -/
def Obligations.ReadingsAreJudged : Prop :=
  (∀ (s : State) (st : Station) (v : InService) (slot : Fin 32),
    s.usableFallback st = some (v, slot) ↔ s.mayFallBack st v slot) ∧
  (∀ (dt : Nat) (st : Station) (tower : Fin 8) (s : State),
    (∀ e, (s.cell st tower).silence = .watched e →
      exec (.silenceExpiry dt st tower) s = .next
        (((({ s with now := max (s.now + dt) e } : State).updCell st tower fun c =>
          { c with silence := .silent }).raise (.monitorSilent st tower
            ((s.station st).inService.map fun v => v.snap.slot))).drivePins)) ∧
    ((s.cell st tower).silence = .notWatched ∨ (s.cell st tower).silence = .silent →
      exec (.silenceExpiry dt st tower) s = .next (s.elapse dt).drivePins)) ∧
  (∀ (dt : Nat) (f : MonitorFrame) (r : Reading) (v : InService) (w : Window) (s : State),
    frameReading f = some r → r.valid = true → s.settled →
    (s.unit r.station).phase ≠ .verifying → s.monitor.supervised.get r.station = true →
    (s.station r.station).inService = some v → v.snap.pattern.windowOn r.tower = some w →
    (w.inTolerance r.ratio r.phase = true →
      ∃ t, exec (.monitorFrame dt f) s = .next t ∧ (t.cell r.station r.tower).run = 0 ∧
        t.stations = s.stations ∧ t.units = s.units ∧ t.rows = s.rows ∧ t.attention = s.attention ∧
        t.arbiter = s.arbiter ∧ s.sameRecords t) ∧
    (w.inTolerance r.ratio r.phase = false →
      (s.cell r.station r.tower).run + 1 < s.tables.site.toleranceRun →
      ∃ t, exec (.monitorFrame dt f) s = .next t ∧
        (t.cell r.station r.tower).run = (s.cell r.station r.tower).run + 1 ∧
        t.stations = s.stations ∧ t.units = s.units ∧ t.rows = s.rows ∧ t.attention = s.attention ∧
        t.arbiter = s.arbiter ∧ s.sameRecords t) ∧
    (w.inTolerance r.ratio r.phase = false →
      s.tables.site.toleranceRun ≤ (s.cell r.station r.tower).run + 1 →
      (s.usableFallback r.station = none →
        ∃ t, exec (.monitorFrame dt f) s = .next t ∧
          t.station r.station = (s.station r.station).takeFault .monitor ∧
          t.station r.station.other = s.station r.station.other ∧
          t.attention = (s.raise (.monitorFail r.station v.snap.slot v.snap.version .monitor
            [(r.tower, r.ratio, r.phase)] false)).attention ∧
          s.sameRecords t ∧ s.sameSensed t) ∧
      (∀ slot, s.usableFallback r.station = some (v, slot) → (s.unit r.station).phase ≠ .idle →
        (s.station r.station).request = none →
        ∃ t, exec (.monitorFrame dt f) s = .next t ∧
          t.station r.station = { s.station r.station with
            request := some ⟨slot, .protective, .fallback v.snap.slot⟩ } ∧
          t.monitor.failures.get r.station =
            some ⟨.monitor, v.snap.slot, v.snap.version, slot, false⟩ ∧
          t.attention = (s.raise (.monitorFail r.station v.snap.slot v.snap.version .monitor
            [(r.tower, r.ratio, r.phase)] true)).attention ∧
          s.sameRecords t ∧ s.sameSensed t) ∧
      (∀ slot q, s.usableFallback r.station = some (v, slot) →
        q = (⟨slot, .protective, .fallback v.snap.slot⟩ : Request) →
        ((s.unit r.station).phase ≠ .idle ∨ s.siteCommitRunning = true ∨
          (s.station r.station).request ≠ none) →
        ∃ t, exec (.monitorFrame dt f) s = .next t ∧
          t.station r.station = { s.station r.station with request := some q } ∧
          t.units = s.units ∧ t.rows = s.rows ∧ s.sameRecords t ∧
          t.monitor.failures.get r.station =
            some ⟨.monitor, v.snap.slot, v.snap.version, slot, false⟩ ∧
          t.attention[(3 : Fin 16)].latched = true ∧
          ((s.station r.station).request ≠ none → t.attention[(9 : Fin 16)].latched = true)) ∧
      (∀ slot q y, s.usableFallback r.station = some (v, slot) →
        q = (⟨slot, .protective, .fallback v.snap.slot⟩ : Request) → s.pattern slot = some y →
        (s.unit r.station).phase = .idle → s.siteCommitRunning = false →
        (s.station r.station).request = none → (s.unit r.station.other).waiting = false →
        ∃ t, exec (.monitorFrame dt f) s = .next t ∧ t.attention[(3 : Fin 16)].latched = true ∧
          s.handedOver t r.station q ∧ s.sameRecords t ∧ s.sameSensed t ∧
          (∀ why, s.claimingRefusal r.station y.pattern = some why →
            (t.unit r.station).phase = .idle ∧ t.monitor.failures.get r.station = none ∧
            (t.station r.station).arrayState = .faulted ∧
            (t.station r.station).faultReason = some .monitor ∧
            (t.station r.station).claims.fault = true ∧
            (t.station r.station).lastOutcome = some
              { outcome := .refused, why := some why, slot := slot, source := q.source,
                priority := .protective }) ∧
          (s.claimingRefusal r.station y.pattern = none →
            ((∃ c ∈ y.pattern.listed, (s.row c).claim ≠ .none) →
              t.unit r.station = { TransitionRecord.idle with
                phase := .claiming, waiting := true, target := some ⟨slot, y.version, y.pattern⟩,
                priority := some .protective, source := some q.source } ∧
              t.station r.station = s.station r.station ∧ t.rows = s.rows ∧
              t.monitor.failures.get r.station =
                some ⟨.monitor, v.snap.slot, v.snap.version, slot, true⟩) ∧
            (∀ moving, (∀ c ∈ y.pattern.listed, (s.row c).claim = .none) →
              moving = y.pattern.listed.filter
                (fun c => (y.pattern.lists c).any fun p => !s.standsAt c p) →
              (moving ≠ [] → s.allCarriersOff (s.pathsOf moving) = false →
                t.unit r.station = { TransitionRecord.idle with
                  phase := .muting, target := some ⟨slot, y.version, y.pattern⟩,
                  priority := some .protective, source := some q.source, moving := moving,
                  muted := s.pathsOf moving,
                  timer := some (s.now + dt + 1000 * s.tables.site.carrierOffWait),
                  drove := s.grantedTo t r.station } ∧
                (t.station r.station).arrayState = .inPattern ∧
                (∀ c, (t.row c).claim =
                  if c ∈ y.pattern.listed then .tu r.station else (s.row c).claim) ∧
                t.monitor.failures.get r.station =
                  some ⟨.monitor, v.snap.slot, v.snap.version, slot, true⟩) ∧
              (moving = [] →
                (t.unit r.station).phase = .settling ∧ t.monitor.failures.get r.station = none ∧
                (t.station r.station).arrayState = .inPattern ∧
                (t.station r.station).inService = some ⟨⟨slot, y.version, y.pattern⟩, true,
                  if y.pattern.windows.isEmpty then .notMonitored else .no⟩)))))) ∧
  (∀ (dt : Nat) (f : MonitorFrame) (r : Reading) (s : State),
    frameReading f = some r → r.valid = false → s.settled →
    exec (.monitorFrame dt f) s = .next
      (({ s with now := s.now + dt, monitor := { s.monitor with rx := none } }.updCell r.station
        r.tower fun c => { c with
          ratio := some r.ratio, phase := some r.phase, valid := false, arrival := some (s.now + dt),
          silence := if c.silence = Silence.notWatched then .notWatched
            else .watched (s.now + dt + 1000 * s.tables.site.silenceLimit) }).drivePins)) ∧
  (∀ (dt : Nat) (f : MonitorFrame) (r : Reading) (x : Snapshot) (w : Window) (q : Request)
      (marks : List (Fin 8 × Mark)) (s : State),
    frameReading f = some r → r.valid = true → (s.unit r.station).phase = .verifying →
    (s.unit r.station).target = some x → (s.unit r.station).request = some q →
    x.pattern.windowOn r.tower = some w → (r.tower, Mark.undecided) ∈ (s.unit r.station).marks →
    marks = (s.unit r.station).marks.map (fun m => if m.1 = r.tower then
      (r.tower, if w.inTolerance r.ratio r.phase then Mark.inTolerance else .out r.ratio r.phase)
      else m) →
    ((∃ m ∈ marks, m.2 = .undecided) →
      ∃ t, exec (.monitorFrame dt f) s = .next t ∧
        t.unit r.station = { s.unit r.station with
          marks := marks, drove := (s.unit r.station).drove || s.grantedTo t r.station } ∧
        t.attention = s.attention ∧ t.stations = s.stations ∧ s.sameRecords t ∧ s.sameSensed t) ∧
    ((∀ m ∈ marks, m.2 = .inTolerance) → s.nothingWaits →
      ∃ t, exec (.monitorFrame dt f) s = .next t ∧
        s.ended t r.station q .completedVerified none ∧
        (∀ i, (s.station r.station).inService = some i → i.snap.slot = x.slot →
          i.snap.version = x.version →
          (t.station r.station).inService = some { i with verified := .yes }) ∧
        s.sameSensed t) ∧
    ((∀ m ∈ marks, m.2 ≠ .undecided) → (∃ m ∈ marks, m.2 ≠ .inTolerance) → s.nothingWaits →
      s.usableFallback r.station = none →
      ∃ t, exec (.monitorFrame dt f) s = .next t ∧
        s.ended t r.station q .verifyFailed none ∧ t.attention[(3 : Fin 16)].latched = true ∧
        (t.station r.station).claims.fault = true ∧
        (t.station r.station).arrayState = .faulted ∧ s.sameSensed t) ∧
    (∀ v slot p, (∀ m ∈ marks, m.2 ≠ .undecided) → (∃ m ∈ marks, m.2 ≠ .inTolerance) →
      s.usableFallback r.station = some (v, slot) →
      p = (⟨slot, .protective, .fallback v.snap.slot⟩ : Request) →
      (s.unit r.station.other).waiting = false →
      ∃ t, exec (.monitorFrame dt f) s = .next t ∧ t.attention[(3 : Fin 16)].latched = true ∧
        t.attention[(4 : Fin 16)].latched = true ∧
        ((s.station r.station).request ≠ none → t.attention[(9 : Fin 16)].latched = true) ∧
        (s.siteCommitRunning = false → s.handedOver t r.station p ∧
          t.monitor.failures.get r.station =
            if (t.unit r.station).phase = .idle ∨ (t.unit r.station).phase = .settling then none
            else some ⟨.verify, v.snap.slot, v.snap.version, slot, true⟩) ∧
        (s.siteCommitRunning = true →
          (t.unit r.station).phase = .idle ∧ (t.station r.station).request = some p ∧
          (t.station r.station).lastOutcome = some
            { outcome := .verifyFailed, why := none, slot := q.slot, source := q.source,
              priority := q.priority } ∧
          t.monitor.failures.get r.station =
            some ⟨.verify, v.snap.slot, v.snap.version, slot, false⟩) ∧
        s.sameSensed t))

/-! ### The site clock -/

/-- R137 to R142, R150, R151, R52, R53: second boundaries and the time source. The calendar's rows; a boundary of
the internal base 1000 ms after the timing reference, or 1100 ms without a pulse under TREF; a pulse under TREF
makes a boundary 500 ms or more after the last one and only realigns the timing before; under INTERNAL the
qualifying run is judged, and the third pulse of a run regains TREF; TREF is lost 3 s after the last pulse; a source
that is INTERNAL 4 s after a power-on reset is reported. However a boundary is made, a minute boundary marks and
governs as the scan chooses and makes the SCHEDULED request for the target of each station's winner, unless it
stands in it, and the one that ends year 2099 leaves the clock NOT_SET and raises CLOCK_SOURCE. That a command for
the other time source's event changes only the time is the model's choice (log entry 2). The model's own in it: log
entries 1 and 2. -/
def Obligations.ClockKeepsTime : Prop :=
  (∀ x : SiteTime,
    (x.second < 59 → x.next = some { x with second := x.second + 1 }) ∧
    (59 ≤ x.second → x.minute < 1439 →
      x.next = some { x with minute := x.minute + 1, second := 0 }) ∧
    (59 ≤ x.second → 1439 ≤ x.minute → x.date.day < yearLength x.date.year →
      x.next = some ⟨⟨x.date.year, x.date.day + 1⟩, 0, 0⟩) ∧
    (59 ≤ x.second → 1439 ≤ x.minute → yearLength x.date.year ≤ x.date.day → x.date.year < 2099 →
      x.next = some ⟨⟨x.date.year + 1, 1⟩, 0, 0⟩) ∧
    (59 ≤ x.second → 1439 ≤ x.minute → yearLength x.date.year ≤ x.date.day → 2099 ≤ x.date.year →
      x.next = none)) ∧
  (∀ (dt now : Nat) (c : Instr) (clock : Clock) (s : State), s.settled →
    (c = .internalBoundary dt ∧ s.clock.source = .internal ∧
        now = max (s.now + dt) (s.clock.reference + 1000) ∧ clock = s.clock.atBoundary now) ∨
      (c = .trefMissingPulse dt ∧ s.clock.source = .tref ∧
        now = max (s.now + dt) (s.clock.reference + 1100) ∧ clock = s.clock.atBoundary now) ∨
      (c = .trefPulse dt ∧ s.clock.source = .tref ∧ now = s.now + dt ∧ s.clock.boundary + 500 ≤ now ∧
        clock = { s.clock.atBoundary now with lastPulse := some now }) ∨
      (c = .trefPulse dt ∧ s.clock.source = .internal ∧ now = s.now + dt ∧ s.clock.boundary + 500 ≤ now ∧
        3 ≤ s.clock.judgePulse now ∧
        clock = { s.clock.atBoundary now with lastPulse := some now, source := .tref, run := 0 }) →
    (s.quietBoundary →
      exec c s = .next { s with now := now, clock := clock }.drivePins) ∧
    (∀ x, s.clock.time = some x → x.next = none →
      exec c s = .next
        ({ s with now := now, clock := clock }.raise
          (.clockSource .rangeEnd none)).drivePins) ∧
    (∀ x y, s.started = true → s.clock.time = some x → x.next = some y → y.second = 0 →
      ∃ t, exec c s = .next t ∧ t.now = now ∧ t.clock = clock ∧
        (∀ st, (s.station st).suspended = true ∨ s.candidates st y = [] →
          (t.station st).governing = (s.station st).governing) ∧
        (∀ st i, (s.station st).suspended = false → s.firstEntry (s.candidates st y) = some i →
          (t.station st).governing = some i) ∧
        (∀ i : Fin 64, t.lastFired[i] =
          if [Station.A, Station.B].any (fun st => !(s.station st).suspended &&
              (s.candidates st y).contains i)
          then some y.date else s.lastFired[i]) ∧
        t.tables = s.tables ∧ s.sameSensed t ∧ t.link = s.link ∧
        ((∀ st, (s.unit st).waiting = false) → ∀ st,
          (∀ i e, (s.station st).suspended = false → s.firstEntry (s.candidates st y) = some i →
            s.entry i = some e → s.standsInTarget st e.target = false →
            s.requestTaken t st ⟨e.target, .scheduled, .schedule i⟩) ∧
          ((s.station st).suspended = true ∨ s.candidates st y = [] ∨
              (∃ i e, s.firstEntry (s.candidates st y) = some i ∧ s.entry i = some e ∧
                s.standsInTarget st e.target = true) →
            s.requestless t st)))) ∧
  (∀ (dt now run : Nat) (s : State), s.settled → now = s.now + dt →
    run = s.clock.judgePulse now →
    (s.clock.run = 0 → run = 1) ∧
    (∀ p, s.clock.run ≠ 0 → s.clock.lastPulse = some p →
      run = if p + 900 ≤ now ∧ now ≤ p + 1100 then s.clock.run + 1 else 1) ∧
    (s.clock.source = .tref → now < s.clock.boundary + 500 →
      exec (.trefPulse dt) s = .next
        { s with now := now, clock := { s.clock with lastPulse := some now, reference := now } }.drivePins) ∧
    (s.clock.source = .tref → s.clock.boundary + 500 ≤ now → s.quietBoundary →
      exec (.trefPulse dt) s = .next
        { s with now := now,
                 clock := { s.clock.atBoundary now with lastPulse := some now } }.drivePins) ∧
    (s.clock.source = .internal → run < 3 →
      exec (.trefPulse dt) s = .next
        { s with now := now, clock := { s.clock with lastPulse := some now, run := run } }.drivePins) ∧
    (s.clock.source = .internal → 3 ≤ run → now < s.clock.boundary + 500 →
      exec (.trefPulse dt) s = .next
        { s with now := now,
                 clock := { s.clock with lastPulse := some now, source := .tref, run := 0,
                                         reference := now } }.drivePins) ∧
    (s.clock.source = .internal → 3 ≤ run → s.clock.boundary + 500 ≤ now → s.quietBoundary →
      exec (.trefPulse dt) s = .next
        { s with now := now,
                 clock := { s.clock.atBoundary now with
                            lastPulse := some now, source := .tref, run := 0 } }.drivePins)) ∧
  (∀ (dt : Nat) (s : State),
    (∀ p, s.clock.source = .tref → s.clock.lastPulse = some p →
      exec (.trefLost dt) s = .next
        ({ s with now := max (s.now + dt) (p + 3000),
                  clock := { s.clock with source := .internal, run := 0 } }.raise
          (.clockSource .lost s.clock.time)).drivePins) ∧
    (s.clock.source = .internal →
      exec (.trefLost dt) s = .next (s.elapse dt).drivePins ∧
      exec (.trefMissingPulse dt) s = .next (s.elapse dt).drivePins) ∧
    (s.clock.source = .tref →
      exec (.internalBoundary dt) s = .next (s.elapse dt).drivePins) ∧
    (∀ e, s.clock.absentDue = some e →
      exec (.clockSourceAbsentAtStart dt) s = .next
        ((if s.clock.source = .internal then
            State.raise (.clockSource .absentAtStart s.clock.time)
          else id)
          { s with now := max (s.now + dt) e,
                   clock := { s.clock with absentDue := none } }).drivePins) ∧
    (s.clock.absentDue = none →
      exec (.clockSourceAbsentAtStart dt) s = .next (s.elapse dt).drivePins))

/-! ### The record store -/

/-- R174, R176, R180, R181, R182, R183, R185, R186, R189, R7, R20, R38, R152: a segment write that is done fills the
segment's spare bank with a valid bank under the job's number, and the next write erases its own spare. The marker
write completes the job: the marker holds the job's kind, the last host commit and the numbers in force, the job's
pairs turn and its status is COMPLETED. A commit's tables come into force, the queue and the set empty, COMMIT_DONE
is raised, a new contactor configuration and maintenance threshold take effect, and the revised flags and governing
entries are judged again. (The premise on waiting units: a unit waits in CLAIMING, R64, where nothing has moved
yet.) A write fault abandons the job with STORE_FAULT and its status FAILED, the working tables and the queue as
they were and the pairs' spares and staleness as their banks then stand; a fault of an OPS_SAVE leaves a commit that
waits behind it running. The front waiting job then starts under the next number, with its own segments and the
stale pairs'; with all numbers issued the waiting jobs are abandoned. That the commands without a running job, for
another write than the one in progress, or for a fault in a step before the one READ_STORE has shown, change only
the time is the model's choice (log entries 2 and 19). A pulse granted in it counts for its unit's ending (R118).
The model's own in it: log entries 2, 19, 20, 28 and 34. -/
def Obligations.StoreWritesAdvanceTheJob : Prop :=
  ∀ (dt : Nat) (step : WriteStep) (s : State),
    (s.store.running = none →
      exec (.segmentWriteDone dt) s = .next (s.elapse dt).drivePins ∧
      exec (.markerWriteDone dt) s = .next (s.elapse dt).drivePins ∧
      exec (.writeFault dt step) s = .next (s.elapse dt).drivePins) ∧
    (∀ job seg rest next, s.store.running = some job → job.left = seg :: rest →
      next = rest.headD .mark → next ≠ seg →
      exec (.markerWriteDone dt) s = .next (s.elapse dt).drivePins ∧
      ∃ t bank, exec (.segmentWriteDone dt) s = .next t ∧
        bank.valid seg = true ∧ bank.number = job.number ∧ bank.records = s.jobRecords job seg ∧
        t.pair seg = (s.pair seg).setBank (s.pair seg).spare bank ∧
        t.pair next = (s.pair next).setBank (s.pair next).spare Bank.erased ∧
        (∀ x, x ≠ seg → x ≠ next → t.pair x = s.pair x) ∧
        t.store.running = some { job with left := rest, step := .erase } ∧ t.store.waiting = s.store.waiting ∧
        { t with now := s.now, store := s.store, pins := s.pins } = s) ∧
    (∀ job, s.store.running = some job → job.left = [] → s.store.waiting = [] →
      exec (.segmentWriteDone dt) s = .next (s.elapse dt).drivePins ∧
      (job.list.Nodup → Segment.mark ∉ job.list → s.settled → job.kind = .opsSave →
        ∃ t bank, exec (.markerWriteDone dt) s = .next t ∧ t.store.running = none ∧
          t.store.opsStatus = .completed job.number ∧ t.store.hostStatus = s.store.hostStatus ∧
          bank.valid .mark = true ∧ bank.number = job.number ∧
          (∃ m, bank.records = .marker m ∧ s.markerOf job m) ∧
          t.pair .mark = ((s.pair .mark).setBank (s.pair .mark).spare bank).turn ∧
          (∀ seg ∈ job.list, t.pair seg = (s.pair seg).turn) ∧
          (∀ seg, seg ∉ job.list → seg ≠ .mark → t.pair seg = s.pair seg) ∧
          { t with now := s.now, store := s.store, pins := s.pins } = s) ∧
      (∀ run, job.kind = .hostCommit → s.commit = some run →
        (∀ st, (s.unit st).waiting = true → (s.unit st).moved = []) →
        ∃ t, exec (.markerWriteDone dt) s = .next t ∧
          t.tables = s.afterTables run.version ∧
          (s.stagingLawful → s.commitsTo run.version t.tables) ∧ t.staging = [] ∧ t.commit = none ∧
          t.attention[(13 : Fin 16)].latched = true ∧ t.clock = s.clock ∧ t.link = s.link ∧
          t.holds = s.holds ∧ t.lastFired = s.lastFired ∧
          t.store.running = none ∧ t.store.hostStatus = .completed job.number ∧
          t.store.opsStatus = s.store.opsStatus ∧
          (s.attention[(13 : Fin 16)].latched = false →
            t.attention[(13 : Fin 16)].detail = some (.commitDone job.number run.carried.length)) ∧
          (job.list.Nodup → Segment.mark ∉ job.list →
            (∃ bank, bank.valid .mark = true ∧ bank.number = job.number ∧
              (∃ m, bank.records = .marker m ∧ s.markerOf job m) ∧
              t.pair .mark = ((s.pair .mark).setBank (s.pair .mark).spare bank).turn) ∧
            (∀ seg ∈ job.list, t.pair seg = (s.pair seg).turn) ∧
            (∀ seg, seg ∉ job.list → seg ≠ .mark → t.pair seg = s.pair seg)) ∧
          (∀ c, (t.row c).sensedSide =
            (if ∃ x, (RecordId.site, x) ∈ run.carried then
              { s.row c with
                path := t.tables.site.config[c]
                condition := (s.row c).conditionUnder t.tables.site.config[c]
                maintenance := if t.tables.site.maintenance = s.tables.site.maintenance then
                  (s.row c).maintenance else (s.row c).examinedUnder t.tables.site.maintenance }
            else { s.row c with
              maintenance := if t.tables.site.maintenance = s.tables.site.maintenance then
                (s.row c).maintenance else (s.row c).examinedUnder t.tables.site.maintenance }).sensedSide) ∧
          (∀ c, (∃ x, (RecordId.site, x) ∈ run.carried) → (s.row c).path = none →
            t.tables.site.config[c] ≠ none → (s.row c).sensed = .conflict ∨ (s.row c).sensed = .between →
            t.attention[(1 : Fin 16)].latched = true) ∧
          (s.nothingWaits → ∀ st,
            (∃ revised governing, t.station st =
              { s.station st with revised := revised, governing := governing }) ∧
            ((t.station st).revised = true ↔ ∃ v w, (s.station st).inService = some v ∧
              t.pattern v.snap.slot = some w ∧ w.version ≠ v.snap.version) ∧
            (∀ i, (t.station st).governing = some i ↔ (s.station st).governing = some i ∧
              ∃ e, t.entry i = some e ∧ e.enabled = true ∧ e.station = st) ∧
            s.sameUnit t st))) ∧
    (∀ job w rest, s.store.running = some job → job.left = [] → s.store.waiting = w :: rest →
      job.list.Nodup → Segment.mark ∉ job.list → job.kind = .hostCommit → s.commit ≠ none → s.nothingWaits →
      s.store.highest < 4294967295 →
      ∃ t, exec (.markerWriteDone dt) s = .next t ∧ s.jobStarted t w rest ∧
        t.store.hostStatus = .completed job.number ∧ t.commit = none) ∧
    (∀ job w rest, s.store.running = some job → job.left = [] → s.store.waiting = w :: rest →
      job.kind = .opsSave → s.nothingWaits → s.store.highest < 4294967295 →
      ∃ t, exec (.markerWriteDone dt) s = .next t ∧ s.jobStarted t w rest ∧
        t.store.opsStatus = .completed job.number) ∧
    (∀ job, s.store.running = some job → job.left = [] → s.store.waiting ≠ [] → s.nothingWaits →
      4294967295 ≤ s.store.highest →
      ∃ t, exec (.markerWriteDone dt) s = .next t ∧ t.store.running = none ∧ t.store.waiting = [] ∧
        t.attention[(0 : Fin 16)].latched = true ∧
        (∀ w ∈ s.store.waiting,
          (w.kind = .hostCommit → t.store.hostStatus = .failed none ∧ t.commit = none) ∧
          (w.kind = .opsSave → t.store.opsStatus = .failed none))) ∧
    (∀ job, s.store.running = some job → WriteStep.code step < WriteStep.code job.step →
      exec (.writeFault dt step) s = .next (s.elapse dt).drivePins) ∧
    (∀ job, s.store.running = some job → WriteStep.code job.step ≤ WriteStep.code step →
      s.settled → s.nothingWaits →
      ∃ t, exec (.writeFault dt step) s = .next t ∧ t.tables = s.tables ∧ t.staging = s.staging ∧
        t.attention[(0 : Fin 16)].latched = true ∧ t.rows = s.rows ∧ t.stations = s.stations ∧
        t.units = s.units ∧
        (s.attention[(0 : Fin 16)].latched = false → t.attention[(0 : Fin 16)].detail =
          some (.storeFault job.kind job.number (job.left.headD .mark) step)) ∧
        (job.kind = .hostCommit → t.commit = none) ∧
        (job.kind = .opsSave → s.store.waiting = [] ∨ s.store.highest < 4294967295 → t.commit = s.commit) ∧
        (s.store.waiting = [] → t.store.running = none ∧
          (job.kind = .hostCommit → t.store.hostStatus = .failed (some job.number) ∧
            t.store.opsStatus = s.store.opsStatus) ∧
          (job.kind = .opsSave → t.store.opsStatus = .failed (some job.number) ∧
            t.store.hostStatus = s.store.hostStatus) ∧
          t.pair .mark = s.pair .mark ∧
          (∀ seg, seg ≠ .mark → BankPair.judgedAs s.markerNumber seg (s.pair seg) (t.pair seg) ∧
            (t.pair seg).current = (s.pair seg).current)) ∧
        (∀ w rest, s.store.waiting = w :: rest → s.store.highest < 4294967295 →
          s.jobStarted t w rest ∧
          (job.kind = .hostCommit → t.store.hostStatus = .failed (some job.number)) ∧
          (job.kind = .opsSave → t.store.opsStatus = .failed (some job.number)) ∧
          (∀ seg, seg ≠ .mark → (t.pair seg).current = (s.pair seg).current ∧
            ((t.pair seg).stale = true ↔
              (∃ k, (s.pair seg).current ≠ some k ∧ ((s.pair seg).bank k).valid seg = true ∧
                s.markerNumber < ((s.pair seg).bank k).number)))) ∧
        (s.store.waiting ≠ [] → 4294967295 ≤ s.store.highest →
          t.store.running = none ∧ t.store.waiting = [] ∧
          (∀ w ∈ s.store.waiting,
            (w.kind = .hostCommit → t.store.hostStatus = .failed none ∧ t.commit = none) ∧
            (w.kind = .opsSave → t.store.opsStatus = .failed none))))
end

