-- ==== Sys2Proof/Laws/State.lean ====
section
/-! SUPPORT. The fields of the state after each named update, true by `rfl`. -/

namespace Sys2Proof.Machine

@[simp] theorem State.updRow_fields (c : Fin 48) (f : Row → Row) (s : State) :
    (s.updRow c f).now = s.now ∧ (s.updRow c f).races = s.races ∧
    (s.updRow c f).storeLooks = s.storeLooks ∧ (s.updRow c f).started = s.started ∧
    (s.updRow c f).tables = s.tables ∧ (s.updRow c f).staging = s.staging ∧
    (s.updRow c f).commit = s.commit ∧ (s.updRow c f).rows = s.rows.set c (f s.rows[c]) ∧
    (s.updRow c f).scan = s.scan ∧ (s.updRow c f).arbiter = s.arbiter ∧
    (s.updRow c f).stations = s.stations ∧ (s.updRow c f).manual = s.manual ∧
    (s.updRow c f).units = s.units ∧ (s.updRow c f).holds = s.holds ∧
    (s.updRow c f).monitor = s.monitor ∧ (s.updRow c f).clock = s.clock ∧
    (s.updRow c f).lastFired = s.lastFired ∧ (s.updRow c f).store = s.store ∧
    (s.updRow c f).link = s.link ∧ (s.updRow c f).attention = s.attention ∧
    (s.updRow c f).pins = s.pins ∧ (s.updRow c f).pending = s.pending :=
  ⟨rfl, rfl, rfl, rfl, rfl, rfl, rfl, rfl, rfl, rfl, rfl, rfl, rfl, rfl, rfl, rfl, rfl, rfl, rfl, rfl, rfl, rfl⟩

@[simp] theorem State.updRows_fields (f : Fin 48 → Row → Row) (s : State) :
    (s.updRows f).now = s.now ∧ (s.updRows f).races = s.races ∧
    (s.updRows f).storeLooks = s.storeLooks ∧ (s.updRows f).started = s.started ∧
    (s.updRows f).tables = s.tables ∧ (s.updRows f).staging = s.staging ∧
    (s.updRows f).commit = s.commit ∧ (s.updRows f).rows = (Vector.ofFn fun c => f c s.rows[c]) ∧
    (s.updRows f).scan = s.scan ∧ (s.updRows f).arbiter = s.arbiter ∧
    (s.updRows f).stations = s.stations ∧ (s.updRows f).manual = s.manual ∧
    (s.updRows f).units = s.units ∧ (s.updRows f).holds = s.holds ∧ (s.updRows f).monitor = s.monitor ∧
    (s.updRows f).clock = s.clock ∧ (s.updRows f).lastFired = s.lastFired ∧
    (s.updRows f).store = s.store ∧ (s.updRows f).link = s.link ∧
    (s.updRows f).attention = s.attention ∧ (s.updRows f).pins = s.pins ∧
    (s.updRows f).pending = s.pending := by
  simp only [State.updRows, and_self]

@[simp] theorem State.updStation_fields (st : Station) (f : StationRecord → StationRecord) (s : State) :
    (s.updStation st f).now = s.now ∧ (s.updStation st f).races = s.races ∧
    (s.updStation st f).storeLooks = s.storeLooks ∧ (s.updStation st f).started = s.started ∧
    (s.updStation st f).tables = s.tables ∧ (s.updStation st f).staging = s.staging ∧
    (s.updStation st f).commit = s.commit ∧ (s.updStation st f).rows = s.rows ∧
    (s.updStation st f).scan = s.scan ∧ (s.updStation st f).arbiter = s.arbiter ∧
    (s.updStation st f).stations = s.stations.upd st f ∧ (s.updStation st f).manual = s.manual ∧
    (s.updStation st f).units = s.units ∧ (s.updStation st f).holds = s.holds ∧
    (s.updStation st f).monitor = s.monitor ∧ (s.updStation st f).clock = s.clock ∧
    (s.updStation st f).lastFired = s.lastFired ∧ (s.updStation st f).store = s.store ∧
    (s.updStation st f).link = s.link ∧ (s.updStation st f).attention = s.attention ∧
    (s.updStation st f).pins = s.pins ∧ (s.updStation st f).pending = s.pending :=
  ⟨rfl, rfl, rfl, rfl, rfl, rfl, rfl, rfl, rfl, rfl, rfl, rfl, rfl, rfl, rfl, rfl, rfl, rfl, rfl, rfl, rfl, rfl⟩

@[simp] theorem State.updUnit_fields (st : Station) (f : TransitionRecord → TransitionRecord) (s : State) :
    (s.updUnit st f).now = s.now ∧ (s.updUnit st f).races = s.races ∧
    (s.updUnit st f).storeLooks = s.storeLooks ∧ (s.updUnit st f).started = s.started ∧
    (s.updUnit st f).tables = s.tables ∧ (s.updUnit st f).staging = s.staging ∧
    (s.updUnit st f).commit = s.commit ∧ (s.updUnit st f).rows = s.rows ∧
    (s.updUnit st f).scan = s.scan ∧ (s.updUnit st f).arbiter = s.arbiter ∧
    (s.updUnit st f).stations = s.stations ∧ (s.updUnit st f).manual = s.manual ∧
    (s.updUnit st f).units = s.units.upd st f ∧ (s.updUnit st f).holds = s.holds ∧
    (s.updUnit st f).monitor = s.monitor ∧ (s.updUnit st f).clock = s.clock ∧
    (s.updUnit st f).lastFired = s.lastFired ∧ (s.updUnit st f).store = s.store ∧
    (s.updUnit st f).link = s.link ∧ (s.updUnit st f).attention = s.attention ∧
    (s.updUnit st f).pins = s.pins ∧ (s.updUnit st f).pending = s.pending :=
  ⟨rfl, rfl, rfl, rfl, rfl, rfl, rfl, rfl, rfl, rfl, rfl, rfl, rfl, rfl, rfl, rfl, rfl, rfl, rfl, rfl, rfl, rfl⟩

@[simp] theorem State.updCell_fields (st : Station) (t : Fin 8) (f : Cell → Cell) (s : State) :
    (s.updCell st t f).now = s.now ∧ (s.updCell st t f).races = s.races ∧
    (s.updCell st t f).storeLooks = s.storeLooks ∧ (s.updCell st t f).started = s.started ∧
    (s.updCell st t f).tables = s.tables ∧ (s.updCell st t f).staging = s.staging ∧
    (s.updCell st t f).commit = s.commit ∧ (s.updCell st t f).rows = s.rows ∧
    (s.updCell st t f).scan = s.scan ∧ (s.updCell st t f).arbiter = s.arbiter ∧
    (s.updCell st t f).stations = s.stations ∧ (s.updCell st t f).manual = s.manual ∧
    (s.updCell st t f).units = s.units ∧ (s.updCell st t f).holds = s.holds ∧
    (s.updCell st t f).clock = s.clock ∧ (s.updCell st t f).lastFired = s.lastFired ∧
    (s.updCell st t f).store = s.store ∧ (s.updCell st t f).link = s.link ∧
    (s.updCell st t f).attention = s.attention ∧ (s.updCell st t f).pins = s.pins ∧
    (s.updCell st t f).pending = s.pending :=
  ⟨rfl, rfl, rfl, rfl, rfl, rfl, rfl, rfl, rfl, rfl, rfl, rfl, rfl, rfl, rfl, rfl, rfl, rfl, rfl, rfl, rfl⟩

@[simp] theorem State.setFailure_fields (st : Station) (x : Option OpenFailure) (s : State) :
    (s.setFailure st x).now = s.now ∧ (s.setFailure st x).races = s.races ∧
    (s.setFailure st x).storeLooks = s.storeLooks ∧ (s.setFailure st x).started = s.started ∧
    (s.setFailure st x).tables = s.tables ∧ (s.setFailure st x).staging = s.staging ∧
    (s.setFailure st x).commit = s.commit ∧ (s.setFailure st x).rows = s.rows ∧
    (s.setFailure st x).scan = s.scan ∧ (s.setFailure st x).arbiter = s.arbiter ∧
    (s.setFailure st x).stations = s.stations ∧ (s.setFailure st x).manual = s.manual ∧
    (s.setFailure st x).units = s.units ∧ (s.setFailure st x).holds = s.holds ∧
    (s.setFailure st x).clock = s.clock ∧ (s.setFailure st x).lastFired = s.lastFired ∧
    (s.setFailure st x).store = s.store ∧ (s.setFailure st x).link = s.link ∧
    (s.setFailure st x).attention = s.attention ∧ (s.setFailure st x).pins = s.pins ∧
    (s.setFailure st x).pending = s.pending :=
  ⟨rfl, rfl, rfl, rfl, rfl, rfl, rfl, rfl, rfl, rfl, rfl, rfl, rfl, rfl, rfl, rfl, rfl, rfl, rfl, rfl, rfl⟩

@[simp] theorem State.updMonitor_fields (f : Monitor → Monitor) (s : State) :
    (s.updMonitor f).now = s.now ∧ (s.updMonitor f).races = s.races ∧
    (s.updMonitor f).storeLooks = s.storeLooks ∧ (s.updMonitor f).started = s.started ∧
    (s.updMonitor f).tables = s.tables ∧ (s.updMonitor f).staging = s.staging ∧
    (s.updMonitor f).commit = s.commit ∧ (s.updMonitor f).rows = s.rows ∧
    (s.updMonitor f).scan = s.scan ∧ (s.updMonitor f).arbiter = s.arbiter ∧
    (s.updMonitor f).stations = s.stations ∧ (s.updMonitor f).manual = s.manual ∧
    (s.updMonitor f).units = s.units ∧ (s.updMonitor f).holds = s.holds ∧
    (s.updMonitor f).monitor = f s.monitor ∧ (s.updMonitor f).clock = s.clock ∧
    (s.updMonitor f).lastFired = s.lastFired ∧ (s.updMonitor f).store = s.store ∧
    (s.updMonitor f).link = s.link ∧ (s.updMonitor f).attention = s.attention ∧
    (s.updMonitor f).pins = s.pins ∧ (s.updMonitor f).pending = s.pending :=
  ⟨rfl, rfl, rfl, rfl, rfl, rfl, rfl, rfl, rfl, rfl, rfl, rfl, rfl, rfl, rfl, rfl, rfl, rfl, rfl, rfl, rfl, rfl⟩

@[simp] theorem State.updArbiter_fields (f : Arbiter → Arbiter) (s : State) :
    (s.updArbiter f).now = s.now ∧ (s.updArbiter f).races = s.races ∧
    (s.updArbiter f).storeLooks = s.storeLooks ∧ (s.updArbiter f).started = s.started ∧
    (s.updArbiter f).tables = s.tables ∧ (s.updArbiter f).staging = s.staging ∧
    (s.updArbiter f).commit = s.commit ∧ (s.updArbiter f).rows = s.rows ∧
    (s.updArbiter f).scan = s.scan ∧ (s.updArbiter f).arbiter = f s.arbiter ∧
    (s.updArbiter f).stations = s.stations ∧ (s.updArbiter f).manual = s.manual ∧
    (s.updArbiter f).units = s.units ∧ (s.updArbiter f).holds = s.holds ∧
    (s.updArbiter f).monitor = s.monitor ∧ (s.updArbiter f).clock = s.clock ∧
    (s.updArbiter f).lastFired = s.lastFired ∧ (s.updArbiter f).store = s.store ∧
    (s.updArbiter f).link = s.link ∧ (s.updArbiter f).attention = s.attention ∧
    (s.updArbiter f).pins = s.pins ∧ (s.updArbiter f).pending = s.pending :=
  ⟨rfl, rfl, rfl, rfl, rfl, rfl, rfl, rfl, rfl, rfl, rfl, rfl, rfl, rfl, rfl, rfl, rfl, rfl, rfl, rfl, rfl, rfl⟩

@[simp] theorem State.updStore_fields (f : Store → Store) (s : State) :
    (s.updStore f).now = s.now ∧ (s.updStore f).races = s.races ∧
    (s.updStore f).storeLooks = s.storeLooks ∧ (s.updStore f).started = s.started ∧
    (s.updStore f).tables = s.tables ∧ (s.updStore f).staging = s.staging ∧
    (s.updStore f).commit = s.commit ∧ (s.updStore f).rows = s.rows ∧ (s.updStore f).scan = s.scan ∧
    (s.updStore f).arbiter = s.arbiter ∧ (s.updStore f).stations = s.stations ∧
    (s.updStore f).manual = s.manual ∧ (s.updStore f).units = s.units ∧
    (s.updStore f).holds = s.holds ∧ (s.updStore f).monitor = s.monitor ∧
    (s.updStore f).clock = s.clock ∧ (s.updStore f).lastFired = s.lastFired ∧
    (s.updStore f).store = f s.store ∧ (s.updStore f).link = s.link ∧
    (s.updStore f).attention = s.attention ∧ (s.updStore f).pins = s.pins ∧
    (s.updStore f).pending = s.pending :=
  ⟨rfl, rfl, rfl, rfl, rfl, rfl, rfl, rfl, rfl, rfl, rfl, rfl, rfl, rfl, rfl, rfl, rfl, rfl, rfl, rfl, rfl, rfl⟩

@[simp] theorem State.updClock_fields (f : Clock → Clock) (s : State) :
    (s.updClock f).now = s.now ∧ (s.updClock f).races = s.races ∧
    (s.updClock f).storeLooks = s.storeLooks ∧ (s.updClock f).started = s.started ∧
    (s.updClock f).tables = s.tables ∧ (s.updClock f).staging = s.staging ∧
    (s.updClock f).commit = s.commit ∧ (s.updClock f).rows = s.rows ∧ (s.updClock f).scan = s.scan ∧
    (s.updClock f).arbiter = s.arbiter ∧ (s.updClock f).stations = s.stations ∧
    (s.updClock f).manual = s.manual ∧ (s.updClock f).units = s.units ∧
    (s.updClock f).holds = s.holds ∧ (s.updClock f).monitor = s.monitor ∧
    (s.updClock f).clock = f s.clock ∧ (s.updClock f).lastFired = s.lastFired ∧
    (s.updClock f).store = s.store ∧ (s.updClock f).link = s.link ∧
    (s.updClock f).attention = s.attention ∧ (s.updClock f).pins = s.pins ∧
    (s.updClock f).pending = s.pending :=
  ⟨rfl, rfl, rfl, rfl, rfl, rfl, rfl, rfl, rfl, rfl, rfl, rfl, rfl, rfl, rfl, rfl, rfl, rfl, rfl, rfl, rfl, rfl⟩

@[simp] theorem State.updLink_fields (f : Link → Link) (s : State) :
    (s.updLink f).now = s.now ∧ (s.updLink f).races = s.races ∧
    (s.updLink f).storeLooks = s.storeLooks ∧ (s.updLink f).started = s.started ∧
    (s.updLink f).tables = s.tables ∧ (s.updLink f).staging = s.staging ∧
    (s.updLink f).commit = s.commit ∧ (s.updLink f).rows = s.rows ∧ (s.updLink f).scan = s.scan ∧
    (s.updLink f).arbiter = s.arbiter ∧ (s.updLink f).stations = s.stations ∧
    (s.updLink f).manual = s.manual ∧ (s.updLink f).units = s.units ∧ (s.updLink f).holds = s.holds ∧
    (s.updLink f).monitor = s.monitor ∧ (s.updLink f).clock = s.clock ∧
    (s.updLink f).lastFired = s.lastFired ∧ (s.updLink f).store = s.store ∧
    (s.updLink f).link = f s.link ∧ (s.updLink f).attention = s.attention ∧
    (s.updLink f).pins = s.pins ∧ (s.updLink f).pending = s.pending :=
  ⟨rfl, rfl, rfl, rfl, rfl, rfl, rfl, rfl, rfl, rfl, rfl, rfl, rfl, rfl, rfl, rfl, rfl, rfl, rfl, rfl, rfl, rfl⟩

@[simp] theorem State.updFlag_fields (n : Fin 16) (f : Flag → Flag) (s : State) :
    (s.updFlag n f).now = s.now ∧ (s.updFlag n f).races = s.races ∧
    (s.updFlag n f).storeLooks = s.storeLooks ∧ (s.updFlag n f).started = s.started ∧
    (s.updFlag n f).tables = s.tables ∧ (s.updFlag n f).staging = s.staging ∧
    (s.updFlag n f).commit = s.commit ∧ (s.updFlag n f).rows = s.rows ∧ (s.updFlag n f).scan = s.scan ∧
    (s.updFlag n f).arbiter = s.arbiter ∧ (s.updFlag n f).stations = s.stations ∧
    (s.updFlag n f).manual = s.manual ∧ (s.updFlag n f).units = s.units ∧
    (s.updFlag n f).holds = s.holds ∧ (s.updFlag n f).monitor = s.monitor ∧
    (s.updFlag n f).clock = s.clock ∧ (s.updFlag n f).lastFired = s.lastFired ∧
    (s.updFlag n f).store = s.store ∧ (s.updFlag n f).link = s.link ∧
    (s.updFlag n f).attention = s.attention.set n (f s.attention[n]) ∧ (s.updFlag n f).pins = s.pins ∧
    (s.updFlag n f).pending = s.pending :=
  ⟨rfl, rfl, rfl, rfl, rfl, rfl, rfl, rfl, rfl, rfl, rfl, rfl, rfl, rfl, rfl, rfl, rfl, rfl, rfl, rfl, rfl, rfl⟩

@[simp] theorem State.raise_fields (d : Detail) (s : State) :
    (s.raise d).now = s.now ∧ (s.raise d).races = s.races ∧ (s.raise d).storeLooks = s.storeLooks ∧
    (s.raise d).started = s.started ∧ (s.raise d).tables = s.tables ∧ (s.raise d).staging = s.staging ∧
    (s.raise d).commit = s.commit ∧ (s.raise d).rows = s.rows ∧ (s.raise d).scan = s.scan ∧
    (s.raise d).arbiter = s.arbiter ∧ (s.raise d).stations = s.stations ∧
    (s.raise d).manual = s.manual ∧ (s.raise d).units = s.units ∧ (s.raise d).holds = s.holds ∧
    (s.raise d).monitor = s.monitor ∧ (s.raise d).clock = s.clock ∧
    (s.raise d).lastFired = s.lastFired ∧ (s.raise d).store = s.store ∧ (s.raise d).link = s.link ∧
    (s.raise d).attention = s.attention.set d.flag (Flag.raise d s.attention[d.flag]) ∧
    (s.raise d).pins = s.pins ∧ (s.raise d).pending = s.pending :=
  ⟨rfl, rfl, rfl, rfl, rfl, rfl, rfl, rfl, rfl, rfl, rfl, rfl, rfl, rfl, rfl, rfl, rfl, rfl, rfl, rfl, rfl, rfl⟩

@[simp] theorem State.respond_fields (code : Byte) (r : Reply) (s : State) :
    (s.respond code r).now = s.now ∧ (s.respond code r).races = s.races ∧
    (s.respond code r).storeLooks = s.storeLooks ∧ (s.respond code r).started = s.started ∧
    (s.respond code r).tables = s.tables ∧ (s.respond code r).staging = s.staging ∧
    (s.respond code r).commit = s.commit ∧ (s.respond code r).rows = s.rows ∧
    (s.respond code r).scan = s.scan ∧ (s.respond code r).arbiter = s.arbiter ∧
    (s.respond code r).stations = s.stations ∧ (s.respond code r).manual = s.manual ∧
    (s.respond code r).units = s.units ∧ (s.respond code r).holds = s.holds ∧
    (s.respond code r).monitor = s.monitor ∧ (s.respond code r).clock = s.clock ∧
    (s.respond code r).lastFired = s.lastFired ∧ (s.respond code r).store = s.store ∧
    (s.respond code r).link = { s.link with rx := .answering, tx := responseFrame code r } ∧
    (s.respond code r).attention = s.attention ∧ (s.respond code r).pins = s.pins ∧
    (s.respond code r).pending = s.pending :=
  ⟨rfl, rfl, rfl, rfl, rfl, rfl, rfl, rfl, rfl, rfl, rfl, rfl, rfl, rfl, rfl, rfl, rfl, rfl, rfl, rfl, rfl, rfl⟩

@[simp] theorem State.elapse_fields (dt : Nat) (s : State) :
    (s.elapse dt).now = s.now + dt ∧ (s.elapse dt).races = s.races ∧
    (s.elapse dt).storeLooks = s.storeLooks ∧ (s.elapse dt).started = s.started ∧
    (s.elapse dt).tables = s.tables ∧ (s.elapse dt).staging = s.staging ∧
    (s.elapse dt).commit = s.commit ∧ (s.elapse dt).rows = s.rows ∧ (s.elapse dt).scan = s.scan ∧
    (s.elapse dt).arbiter = s.arbiter ∧ (s.elapse dt).stations = s.stations ∧
    (s.elapse dt).manual = s.manual ∧ (s.elapse dt).units = s.units ∧ (s.elapse dt).holds = s.holds ∧
    (s.elapse dt).monitor = s.monitor ∧ (s.elapse dt).clock = s.clock ∧
    (s.elapse dt).lastFired = s.lastFired ∧ (s.elapse dt).store = s.store ∧
    (s.elapse dt).link = s.link ∧ (s.elapse dt).attention = s.attention ∧ (s.elapse dt).pins = s.pins ∧
    (s.elapse dt).pending = s.pending :=
  ⟨rfl, rfl, rfl, rfl, rfl, rfl, rfl, rfl, rfl, rfl, rfl, rfl, rfl, rfl, rfl, rfl, rfl, rfl, rfl, rfl, rfl, rfl⟩

@[simp] theorem State.elapseTo_fields (dt t : Nat) (s : State) :
    (s.elapseTo dt t).now = max (s.now + dt) t ∧ (s.elapseTo dt t).races = s.races ∧
    (s.elapseTo dt t).storeLooks = s.storeLooks ∧ (s.elapseTo dt t).started = s.started ∧
    (s.elapseTo dt t).tables = s.tables ∧ (s.elapseTo dt t).staging = s.staging ∧
    (s.elapseTo dt t).commit = s.commit ∧ (s.elapseTo dt t).rows = s.rows ∧
    (s.elapseTo dt t).scan = s.scan ∧ (s.elapseTo dt t).arbiter = s.arbiter ∧
    (s.elapseTo dt t).stations = s.stations ∧ (s.elapseTo dt t).manual = s.manual ∧
    (s.elapseTo dt t).units = s.units ∧ (s.elapseTo dt t).holds = s.holds ∧
    (s.elapseTo dt t).monitor = s.monitor ∧ (s.elapseTo dt t).clock = s.clock ∧
    (s.elapseTo dt t).lastFired = s.lastFired ∧ (s.elapseTo dt t).store = s.store ∧
    (s.elapseTo dt t).link = s.link ∧ (s.elapseTo dt t).attention = s.attention ∧
    (s.elapseTo dt t).pins = s.pins ∧ (s.elapseTo dt t).pending = s.pending :=
  ⟨rfl, rfl, rfl, rfl, rfl, rfl, rfl, rfl, rfl, rfl, rfl, rfl, rfl, rfl, rfl, rfl, rfl, rfl, rfl, rfl, rfl, rfl⟩

@[simp] theorem State.drivePins_fields (s : State) :
    (s.drivePins).now = s.now ∧ (s.drivePins).races = s.races ∧
    (s.drivePins).storeLooks = s.storeLooks ∧ (s.drivePins).started = s.started ∧
    (s.drivePins).tables = s.tables ∧ (s.drivePins).staging = s.staging ∧
    (s.drivePins).commit = s.commit ∧ (s.drivePins).rows = s.rows ∧ (s.drivePins).scan = s.scan ∧
    (s.drivePins).arbiter = s.arbiter ∧ (s.drivePins).stations = s.stations ∧
    (s.drivePins).manual = s.manual ∧ (s.drivePins).units = s.units ∧ (s.drivePins).holds = s.holds ∧
    (s.drivePins).monitor = s.monitor ∧ (s.drivePins).clock = s.clock ∧
    (s.drivePins).lastFired = s.lastFired ∧ (s.drivePins).store = s.store ∧
    (s.drivePins).link = s.link ∧ (s.drivePins).attention = s.attention ∧
    (s.drivePins).pins = s.pinsNow ∧ (s.drivePins).pending = s.pending :=
  ⟨rfl, rfl, rfl, rfl, rfl, rfl, rfl, rfl, rfl, rfl, rfl, rfl, rfl, rfl, rfl, rfl, rfl, rfl, rfl, rfl, rfl, rfl⟩

@[simp] theorem State.markFired_fields (l : List (Fin 64)) (d : Date) (s : State) :
    (s.markFired l d).now = s.now ∧ (s.markFired l d).races = s.races ∧
    (s.markFired l d).storeLooks = s.storeLooks ∧ (s.markFired l d).started = s.started ∧
    (s.markFired l d).tables = s.tables ∧ (s.markFired l d).staging = s.staging ∧
    (s.markFired l d).commit = s.commit ∧ (s.markFired l d).rows = s.rows ∧
    (s.markFired l d).scan = s.scan ∧ (s.markFired l d).arbiter = s.arbiter ∧
    (s.markFired l d).stations = s.stations ∧ (s.markFired l d).manual = s.manual ∧
    (s.markFired l d).units = s.units ∧ (s.markFired l d).holds = s.holds ∧
    (s.markFired l d).monitor = s.monitor ∧ (s.markFired l d).clock = s.clock ∧
    (s.markFired l d).store = s.store ∧ (s.markFired l d).link = s.link ∧
    (s.markFired l d).attention = s.attention ∧ (s.markFired l d).pins = s.pins ∧
    (s.markFired l d).pending = s.pending := by
  simp only [State.markFired, and_self]

@[simp] theorem State.resetCells_fields (st : Station) (b : Bool) (s : State) :
    (s.resetCells st b).now = s.now ∧ (s.resetCells st b).races = s.races ∧
    (s.resetCells st b).storeLooks = s.storeLooks ∧ (s.resetCells st b).started = s.started ∧
    (s.resetCells st b).tables = s.tables ∧ (s.resetCells st b).staging = s.staging ∧
    (s.resetCells st b).commit = s.commit ∧ (s.resetCells st b).rows = s.rows ∧
    (s.resetCells st b).scan = s.scan ∧ (s.resetCells st b).arbiter = s.arbiter ∧
    (s.resetCells st b).stations = s.stations ∧ (s.resetCells st b).manual = s.manual ∧
    (s.resetCells st b).units = s.units ∧ (s.resetCells st b).holds = s.holds ∧
    (s.resetCells st b).clock = s.clock ∧ (s.resetCells st b).lastFired = s.lastFired ∧
    (s.resetCells st b).store = s.store ∧ (s.resetCells st b).link = s.link ∧
    (s.resetCells st b).attention = s.attention ∧ (s.resetCells st b).pins = s.pins ∧
    (s.resetCells st b).pending = s.pending :=
  ⟨rfl, rfl, rfl, rfl, rfl, rfl, rfl, rfl, rfl, rfl, rfl, rfl, rfl, rfl, rfl, rfl, rfl, rfl, rfl, rfl, rfl⟩

end Sys2Proof.Machine
end

