-- ==== Sys2Proof/Laws/Evolves.lean ====
section
/-! SUPPORT. What an event may change, said once: `Keeps s t` for any part of an event, `Evolves s t` for the
parts that also leave the sensed side of the contactor table alone. Both are closed under the named updates;
the lemma of an operation is named after it and extends a `Keeps` or an `Evolves` by that operation. -/

namespace Sys2Proof.Machine

/-! ### Reading what was written -/

@[simp] theorem Both.get_upd {α : Type} (p : Both α) (st u : Station) (f : α → α) :
    (p.upd st f).get u = if u = st then f (p.get u) else p.get u := by
  cases st <;> cases u <;> rfl

@[simp] theorem Both.get_set {α : Type} (p : Both α) (st u : Station) (x : α) :
    (p.set st x).get u = if u = st then x else p.get u := by
  cases st <;> cases u <;> rfl

@[simp] theorem State.row_updRow (s : State) (c d : Fin 48) (f : Row → Row) :
    (s.updRow c f).row d = if d = c then f (s.row d) else s.row d := by
  simp only [State.row, State.updRow, Fin.getElem_fin, Vector.getElem_set]
  by_cases h : d = c
  · subst h; simp
  · have : ¬ c.val = d.val := fun e => h (Fin.ext e.symm)
    simp [h, this]

@[simp] theorem State.row_updRows (s : State) (d : Fin 48) (f : Fin 48 → Row → Row) :
    (s.updRows f).row d = f d (s.row d) := by
  simp [State.row, State.updRows]

@[simp] theorem State.station_updStation (s : State) (st u : Station)
    (f : StationRecord → StationRecord) :
    (s.updStation st f).station u = if u = st then f (s.station u) else s.station u := by
  simp [State.station]

@[simp] theorem State.unit_updUnit (s : State) (st u : Station)
    (f : TransitionRecord → TransitionRecord) :
    (s.updUnit st f).unit u = if u = st then f (s.unit u) else s.unit u := by
  simp [State.unit]

/-! ### Attention flags -/

/-- What raises do to a flag: a latched one keeps its detail, none is cleared, the enable stays. -/
structure FlagGrows (n : Fin 16) (f g : Flag) : Prop where
  enable : g.enable = f.enable
  latched : f.latched = true → g.latched = true ∧ g.detail = f.detail
  lawful : f.lawful n = true → g.lawful n = true

theorem FlagGrows.refl (n : Fin 16) (f : Flag) : FlagGrows n f f := ⟨rfl, fun h => ⟨h, rfl⟩, id⟩

theorem FlagGrows.trans {n : Fin 16} {f g h : Flag} (a : FlagGrows n f g) (b : FlagGrows n g h) :
    FlagGrows n f h :=
  ⟨b.enable.trans a.enable,
   fun l => ⟨(b.latched (a.latched l).1).1, (b.latched (a.latched l).1).2.trans (a.latched l).2⟩,
   fun l => b.lawful (a.lawful l)⟩

theorem Flag.lawful_raise {n : Fin 16} {d : Detail} (h : d.flag = n) (f : Flag)
    (hf : f.lawful n = true) : (Flag.raise d f).lawful n = true := by
  obtain ⟨l, e, x, k⟩ := f
  cases x <;> simp [Flag.lawful] at hf
  · obtain ⟨rfl, rfl⟩ := hf
    simp [Flag.raise, Flag.lawful, h]
  · obtain ⟨⟨⟨rfl, h1⟩, h2⟩, h3⟩ := hf
    simp [Flag.raise, Flag.lawful, h1]
    all_goals omega

theorem FlagGrows.raise {n : Fin 16} {d : Detail} (h : d.flag = n) (f : Flag) :
    FlagGrows n f (Flag.raise d f) :=
  ⟨by unfold Flag.raise; split <;> rfl,
   fun l => by simp [Flag.raise, l],
   Flag.lawful_raise h f⟩

/-! ### The relations -/

/-- What no part of an event's own machinery changes, and how the flags, the stations and the running commit
may change in it. -/
structure Keeps (s t : State) : Prop where
  now : t.now = s.now
  storeLooks : t.storeLooks = s.storeLooks
  started : t.started = s.started
  tables : t.tables = s.tables
  staging : t.staging = s.staging
  scan : t.scan = s.scan
  holds : t.holds = s.holds
  clock : t.clock = s.clock
  lastFired : t.lastFired = s.lastFired
  link : t.link = s.link
  pins : t.pins = s.pins
  pending : t.pending = s.pending
  commit : t.commit = s.commit ∨ t.commit = none
  flags : ∀ n : Fin 16, FlagGrows n s.attention[n] t.attention[n]
  stations : s.stationsLawful → t.stationsLawful
  outside : ∀ st, (t.station st).outside = (s.station st).outside

theorem Keeps.refl (s : State) : Keeps s s :=
  ⟨rfl, rfl, rfl, rfl, rfl, rfl, rfl, rfl, rfl, rfl, rfl, rfl, .inl rfl, fun _ => .refl _ _, id, fun _ => rfl⟩

theorem Keeps.trans {s t u : State} (a : Keeps s t) (b : Keeps t u) : Keeps s u where
  now := b.now.trans a.now
  storeLooks := b.storeLooks.trans a.storeLooks
  started := b.started.trans a.started
  tables := b.tables.trans a.tables
  staging := b.staging.trans a.staging
  scan := b.scan.trans a.scan
  holds := b.holds.trans a.holds
  clock := b.clock.trans a.clock
  lastFired := b.lastFired.trans a.lastFired
  link := b.link.trans a.link
  pins := b.pins.trans a.pins
  pending := b.pending.trans a.pending
  commit := by
    rcases b.commit with h | h
    · rw [h]; exact a.commit
    · exact .inr h
  flags n := (a.flags n).trans (b.flags n)
  stations h := b.stations (a.stations h)
  outside st := (b.outside st).trans (a.outside st)

/-- `Keeps`, with the sensed side of every row as it was. -/
structure Evolves (s t : State) : Prop extends Keeps s t where
  rows : ∀ c, (t.row c).sensedSide = (s.row c).sensedSide

theorem Evolves.refl (s : State) : Evolves s s := ⟨.refl s, fun _ => rfl⟩

theorem Evolves.trans {s t u : State} (a : Evolves s t) (b : Evolves t u) : Evolves s u :=
  ⟨a.toKeeps.trans b.toKeeps, fun c => (b.rows c).trans (a.rows c)⟩

/-! ### The named updates -/

variable {s t : State}

theorem Evolves.updRow (h : Evolves s t) (c : Fin 48) {f : Row → Row}
    (hf : ∀ r, (f r).sensedSide = r.sensedSide) : Evolves s (t.updRow c f) :=
  h.trans ⟨⟨rfl, rfl, rfl, rfl, rfl, rfl, rfl, rfl, rfl, rfl, rfl, rfl, .inl rfl, fun _ => .refl _ _, id, fun _ => rfl⟩,
    fun d => by rw [State.row_updRow]; split <;> simp [hf]⟩

theorem Evolves.updRows (h : Evolves s t) {f : Fin 48 → Row → Row}
    (hf : ∀ c r, (f c r).sensedSide = r.sensedSide) : Evolves s (t.updRows f) :=
  h.trans ⟨by constructor <;> simp [FlagGrows.refl, State.stationsLawful, State.station],
    fun d => by rw [State.row_updRows, hf]⟩

theorem Keeps.updRow (h : Keeps s t) (c : Fin 48) (f : Row → Row) : Keeps s (t.updRow c f) :=
  h.trans ⟨rfl, rfl, rfl, rfl, rfl, rfl, rfl, rfl, rfl, rfl, rfl, rfl, .inl rfl, fun _ => .refl _ _, id, fun _ => rfl⟩

theorem Keeps.updRows (h : Keeps s t) (f : Fin 48 → Row → Row) : Keeps s (t.updRows f) :=
  h.trans (by constructor <;> simp [FlagGrows.refl, State.stationsLawful, State.station])

/-- An update that touches neither the rows nor what `Keeps` speaks of. -/
theorem Evolves.step (h : Evolves s t) {u : State} (hk : Keeps t u) (hr : u.rows = t.rows) :
    Evolves s u :=
  h.trans ⟨hk, fun c => by simp only [State.row, hr]⟩

theorem Keeps.updStation (h : Keeps s t) (st : Station) {f : StationRecord → StationRecord}
    (hf : ∀ r, r.lawful = true → (f r).lawful = true) (ho : ∀ r, (f r).outside = r.outside) :
    Keeps s (t.updStation st f) :=
  h.trans ⟨rfl, rfl, rfl, rfl, rfl, rfl, rfl, rfl, rfl, rfl, rfl, rfl, .inl rfl, fun _ => .refl _ _,
    fun l u => by
      rw [State.station_updStation]
      split
      · exact hf _ (l u)
      · exact l u,
    fun u => by
      rw [State.station_updStation]
      split
      · exact ho _
      · rfl⟩

theorem Keeps.updUnit (h : Keeps s t) (st : Station) (f : TransitionRecord → TransitionRecord) :
    Keeps s (t.updUnit st f) :=
  h.trans ⟨rfl, rfl, rfl, rfl, rfl, rfl, rfl, rfl, rfl, rfl, rfl, rfl, .inl rfl, fun _ => .refl _ _, id, fun _ => rfl⟩

theorem Keeps.updArbiter (h : Keeps s t) (f : Arbiter → Arbiter) : Keeps s (t.updArbiter f) :=
  h.trans ⟨rfl, rfl, rfl, rfl, rfl, rfl, rfl, rfl, rfl, rfl, rfl, rfl, .inl rfl, fun _ => .refl _ _, id, fun _ => rfl⟩

theorem Keeps.updStore (h : Keeps s t) (f : Store → Store) : Keeps s (t.updStore f) :=
  h.trans ⟨rfl, rfl, rfl, rfl, rfl, rfl, rfl, rfl, rfl, rfl, rfl, rfl, .inl rfl, fun _ => .refl _ _, id, fun _ => rfl⟩

theorem Keeps.updMonitor (h : Keeps s t) (m : Monitor) : Keeps s { t with monitor := m } :=
  h.trans ⟨rfl, rfl, rfl, rfl, rfl, rfl, rfl, rfl, rfl, rfl, rfl, rfl, .inl rfl, fun _ => .refl _ _, id, fun _ => rfl⟩

theorem Keeps.races (h : Keeps s t) (n : Nat) : Keeps s { t with races := n } :=
  h.trans ⟨rfl, rfl, rfl, rfl, rfl, rfl, rfl, rfl, rfl, rfl, rfl, rfl, .inl rfl, fun _ => .refl _ _, id, fun _ => rfl⟩

theorem Keeps.manual (h : Keeps s t) (m : Option ManualMove) : Keeps s { t with manual := m } :=
  h.trans ⟨rfl, rfl, rfl, rfl, rfl, rfl, rfl, rfl, rfl, rfl, rfl, rfl, .inl rfl, fun _ => .refl _ _, id, fun _ => rfl⟩

theorem Keeps.noCommit (h : Keeps s t) : Keeps s { t with commit := none } :=
  h.trans ⟨rfl, rfl, rfl, rfl, rfl, rfl, rfl, rfl, rfl, rfl, rfl, rfl, .inr rfl, fun _ => .refl _ _, id, fun _ => rfl⟩

theorem Keeps.raise (h : Keeps s t) (d : Detail) : Keeps s (t.raise d) :=
  h.trans ⟨rfl, rfl, rfl, rfl, rfl, rfl, rfl, rfl, rfl, rfl, rfl, rfl, .inl rfl,
    fun n => by
      simp only [State.raise_fields, Fin.getElem_fin, Vector.getElem_set]
      split
      · next e =>
        obtain rfl : d.flag = n := Fin.ext e
        exact .raise rfl _
      · exact .refl _ _,
    id, fun _ => rfl⟩

theorem Evolves.updStation (h : Evolves s t) (st : Station) {f : StationRecord → StationRecord}
    (hf : ∀ r, r.lawful = true → (f r).lawful = true) (ho : ∀ r, (f r).outside = r.outside) :
    Evolves s (t.updStation st f) :=
  h.step ((Keeps.refl t).updStation st hf ho) rfl

theorem Evolves.updUnit (h : Evolves s t) (st : Station) (f : TransitionRecord → TransitionRecord) :
    Evolves s (t.updUnit st f) := h.step ((Keeps.refl t).updUnit st f) rfl

theorem Evolves.updArbiter (h : Evolves s t) (f : Arbiter → Arbiter) : Evolves s (t.updArbiter f) :=
  h.step ((Keeps.refl t).updArbiter f) rfl

theorem Evolves.updStore (h : Evolves s t) (f : Store → Store) : Evolves s (t.updStore f) :=
  h.step ((Keeps.refl t).updStore f) rfl

theorem Evolves.updMonitor (h : Evolves s t) (m : Monitor) : Evolves s { t with monitor := m } :=
  h.step ((Keeps.refl t).updMonitor m) rfl

theorem Evolves.races (h : Evolves s t) (n : Nat) : Evolves s { t with races := n } :=
  h.step ((Keeps.refl t).races n) rfl

theorem Evolves.manual (h : Evolves s t) (m : Option ManualMove) : Evolves s { t with manual := m } :=
  h.step ((Keeps.refl t).manual m) rfl

theorem Evolves.noCommit (h : Evolves s t) : Evolves s { t with commit := none } :=
  h.step (Keeps.refl t).noCommit rfl

theorem Evolves.raise (h : Evolves s t) (d : Detail) : Evolves s (t.raise d) :=
  h.step ((Keeps.refl t).raise d) rfl

theorem Evolves.raceOrder (h : Evolves s t) (b : Bool) : Evolves s (t.raceOrder b).2 := by
  unfold State.raceOrder
  split
  · exact h.races _
  · exact h

/-! ### Folds -/

theorem Evolves.foldl {α : Type} {f : State → α → State} (hf : ∀ u a, Evolves u (f u a)) (l : List α)
    (h : Evolves s t) : Evolves s (l.foldl f t) := by
  induction l generalizing t with
  | nil => exact h
  | cons a l ih => exact ih (h.trans (hf t a))

theorem Keeps.foldl {α : Type} {f : State → α → State} (hf : ∀ u a, Keeps u (f u a)) (l : List α)
    (h : Keeps s t) : Keeps s (l.foldl f t) := by
  induction l generalizing t with
  | nil => exact h
  | cons a l ih => exact ih (h.trans (hf t a))

theorem Evolves.foldlEv {α : Type} {f : Ev → α → Ev} (hf : ∀ e a, Evolves e.s (f e a).s) (l : List α)
    {e : Ev} (h : Evolves s e.s) : Evolves s (l.foldl f e).s := by
  induction l generalizing e with
  | nil => exact h
  | cons a l ih => exact ih (h.trans (hf e a))

end Sys2Proof.Machine
end

