-- ==== Sys2Proof/Laws/Transitions.lean ====
section
/-! SUPPORT. Every operation of the transition engine, the arbiter and the job starts extends an `Evolves`: what
each can do, said once. -/

namespace Sys2Proof.Machine

variable {s : State}

/-! ### Station records -/

theorem ArrayState.backed_fault (m : MuteClaims) (a : ArrayState) (h : a.backed m = true) :
    a.backed { m with fault := true } = true := by
  cases a <;> first | rfl | exact h

theorem StationRecord.lawful_placeFault (r : StationRecord) (h : r.lawful = true) :
    r.placeFault.lawful = true := by
  obtain ⟨a, f, p, i, v, m, w, k, q, l, x, y, g⟩ := r
  cases p <;> simp_all [StationRecord.lawful, StationRecord.placeFault, ArrayState.backed_fault]

theorem StationRecord.lawful_takeFault (reason : FaultReason) (r : StationRecord)
    (h : r.lawful = true) : (r.takeFault reason).lawful = true := by
  have hp := StationRecord.lawful_placeFault _ h
  obtain ⟨a, f, p, i, v, m, w, k, q, l, x, y, g⟩ := r
  cases a <;> cases p <;>
    simp_all [StationRecord.lawful, StationRecord.placeFault, StationRecord.takeFault,
      ArrayState.backed_fault] <;> simp [ArrayState.backed]

theorem StationRecord.lawful_startMoving (r : StationRecord) (h : r.lawful = true) :
    r.startMoving.lawful = true := by
  simp_all [StationRecord.lawful, StationRecord.startMoving, ArrayState.backed]

theorem StationRecord.lawful_failedNoMove (r : StationRecord) (h : r.lawful = true) :
    r.failedNoMove.lawful = true := by
  unfold StationRecord.failedNoMove
  split
  · next hp => simp_all [StationRecord.lawful]
  · exact h

theorem StationRecord.lawful_failedMixed (reason : Option FaultReason) (r : StationRecord) :
    (r.failedMixed reason).lawful = true := by
  obtain ⟨a, f, p, i, v, m, w, k, q, l, x, y, g⟩ := r
  cases a <;> rfl

theorem StationRecord.lawful_brokenByMove (r : StationRecord) (h : r.lawful = true) :
    r.brokenByMove.lawful = true := by
  have hp := StationRecord.lawful_placeFault _ h
  unfold StationRecord.brokenByMove
  dsimp only
  split
  · next e =>
    simp_all [StationRecord.lawful, StationRecord.placeFault]
    rfl
  · next e =>
    simp_all [StationRecord.lawful, StationRecord.placeFault]
    rfl
  all_goals exact hp

theorem StationRecord.lawful_putInService (t : Snapshot) (protective : Bool) (r : StationRecord) :
    (r.putInService t protective).lawful = true := rfl

theorem StationRecord.outside_takeFault (reason : FaultReason) (r : StationRecord) :
    (r.takeFault reason).outside = r.outside := by
  unfold StationRecord.takeFault
  dsimp only
  split <;> rfl

theorem StationRecord.outside_failedNoMove (r : StationRecord) :
    r.failedNoMove.outside = r.outside := by
  unfold StationRecord.failedNoMove
  split <;> rfl

theorem StationRecord.outside_failedMixed (reason : Option FaultReason) (r : StationRecord) :
    (r.failedMixed reason).outside = r.outside := by
  unfold StationRecord.failedMixed
  dsimp only
  split <;> rfl

theorem StationRecord.outside_brokenByMove (r : StationRecord) :
    r.brokenByMove.outside = r.outside := by
  unfold StationRecord.brokenByMove
  dsimp only
  split <;> rfl

theorem Evolves.handFault {t : State} (h : Evolves s t) (st : Station) (reason : FaultReason) :
    Evolves s (t.handFault st reason) :=
  h.updStation st (StationRecord.lawful_takeFault reason) (StationRecord.outside_takeFault reason)

theorem Evolves.faultPath {t : State} (h : Evolves s t) (p : Path) (reason : FaultReason) :
    Evolves s (t.faultPath p reason) :=
  h.foldl (fun u st => (Evolves.refl u).handFault st reason) _

theorem Evolves.placeTransition {t : State} (h : Evolves s t) (u : Station) (set : StationSet) :
    Evolves s (t.placeTransition u set) :=
  h.foldl (fun x st => by apply Evolves.updStation (.refl x) <;> exact fun _ => by first | exact id | rfl) _

theorem Evolves.removeTransition {t : State} (h : Evolves s t) (u : Station) (set : StationSet) :
    Evolves s (t.removeTransition u set) :=
  h.foldl (fun x st => by apply Evolves.updStation (.refl x) <;> exact fun _ => by first | exact id | rfl) _

theorem Evolves.evalRevised {t : State} (h : Evolves s t) (st : Station) :
    Evolves s (t.evalRevised st) := by
  apply h.updStation
  · exact fun _ l => l
  · exact fun _ => rfl

/-! ### Supervision -/

theorem Evolves.supervise {t : State} (h : Evolves s t) (st : Station) : Evolves s (t.supervise st) := by
  unfold State.supervise
  dsimp only
  split
  · exact h
  · exact (h.updMonitor _).updMonitor _

theorem Evolves.superviseBoth {t : State} (h : Evolves s t) : Evolves s t.superviseBoth :=
  (h.supervise .A).supervise .B

theorem Evolves.setFailure {t : State} (h : Evolves s t) (st : Station) (x : Option OpenFailure) :
    Evolves s (t.setFailure st x) := h.updMonitor _

/-! ### The arbiter -/

theorem Evolves.enqueue {t : State} (h : Evolves s t) (c : Fin 48) (p : Position) (o : PulseOwner)
    (pr : Priority) (b : Bool) : Evolves s (t.enqueue c p o pr b) := h.updArbiter _

theorem Evolves.submit {t : State} (h : Evolves s t) (c : Fin 48) (p : Position) (o : PulseOwner)
    (pr : Priority) : Evolves s (t.submit c p o pr) := by
  unfold State.submit
  split
  · exact h.enqueue ..
  · exact h

theorem Evolves.dequeue {t : State} (h : Evolves s t) (c : Fin 48) : Evolves s (t.dequeue c) :=
  h.updArbiter _

theorem Evolves.finishPulse {t : State} (h : Evolves s t) (c : Fin 48) : Evolves s (t.finishPulse c) :=
  (h.updArbiter _).updRow c fun _ => rfl

theorem Evolves.grantEntry {t : State} (h : Evolves s t) (q : QueueEntry) :
    Evolves s (t.grantEntry q) := by
  have h2 := (((h.dequeue q.contactor).updArbiter fun a => { a with pulses := a.pulses ++
    [{ entry := q, granted := t.now, driveEnd := some (t.now + t.tables.site.coilPulse),
       travelEnd := t.now + t.tables.site.travelLimit }] }).updRow q.contactor
    (f := fun r => { r with commanded := some q.target, hotMark := StationSet.empty }) fun _ => rfl)
  unfold State.grantEntry
  split
  · exact h2.updUnit _ _
  · exact h2

theorem Evolves.grantWalk (l : List QueueEntry) {t : State} (h : Evolves s t) :
    Evolves s (grantWalk l t) := by
  induction l generalizing t with
  | nil => exact h
  | cons q l ih =>
    unfold Machine.grantWalk
    split
    · exact ih (h.grantEntry q)
    · exact ih h

theorem Evolves.attemptGrants {t : State} (h : Evolves s t) : Evolves s t.attemptGrants :=
  h.grantWalk _

/-! ### Store jobs -/

theorem Evolves.beginWrite {t : State} (h : Evolves s t) (seg : Segment) :
    Evolves s (t.beginWrite seg) := by
  unfold State.beginWrite State.updPair
  exact h.updStore _

theorem Evolves.setStatus {t : State} (h : Evolves s t) (k : JobKind) (x : JobStatus) :
    Evolves s (t.setStatus k x) := h.updStore _

theorem Evolves.startJob {t u : State} (h : Evolves s t) {w : WaitingJob}
    (hu : t.startJob w = some u) : Evolves s u := by
  unfold State.startJob at hu
  split at hu
  · simp at hu
  · obtain rfl := Option.some.inj hu
    exact (h.updStore _).beginWrite _

theorem Evolves.abandonCommit {e : Ev} (h : Evolves s e.s) : Evolves s e.abandonCommit.s := by
  unfold Ev.abandonCommit
  dsimp only
  split <;> exact h.noCommit

theorem Evolves.jobAbandoned {e : Ev} (h : Evolves s e.s) (k : JobKind) :
    Evolves s (e.jobAbandoned k).s := by
  cases k
  · exact h.abandonCommit
  · exact h

theorem Evolves.startFront (l : List WaitingJob) {e : Ev} (h : Evolves s e.s) :
    Evolves s (startFront l e).s := by
  induction l generalizing e with
  | nil => unfold Machine.startFront; dsimp only [Ev.on]; apply h.updStore
  | cons w l ih =>
    unfold Machine.startFront
    split
    · next u hu => dsimp only; apply (h.startJob hu).updStore
    · refine ih (Evolves.jobAbandoned ?_ _)
      exact (h.setStatus _ _).raise _

theorem Evolves.handJob {e : Ev} (h : Evolves s e.s) (w : WaitingJob) : Evolves s (e.handJob w).s := by
  unfold Ev.handJob
  split
  · exact h.startFront _
  · dsimp only [Ev.on]; apply h.updStore

theorem Evolves.requestSave {e : Ev} (h : Evolves s e.s) : Evolves s e.requestSave.s := by
  unfold Ev.requestSave
  split
  · dsimp only [Ev.on]; apply h.updStore
  · exact h.handJob _

/-! ### Claims, outcomes and endings -/

theorem Evolves.releaseClaims {e : Ev} (h : Evolves s e.s) (who : Claim) (cs : List (Fin 48)) :
    Evolves s (e.releaseClaims who cs).s := by
  unfold Ev.releaseClaims
  dsimp only [Ev.on, Ev.push]
  split <;>
  · dsimp only
    apply h.updRows
    intro c r
    split
    · rfl
    · split <;> rfl

theorem Evolves.releaseAll {e : Ev} (h : Evolves s e.s) (who : Claim) :
    Evolves s (e.releaseAll who).s := h.releaseClaims _ _

theorem Evolves.carryRelease {e : Ev} (h : Evolves s e.s) (c : Fin 48) :
    Evolves s (e.carryRelease c).s := by
  unfold Ev.carryRelease
  split
  · dsimp only [Ev.on, Ev.push]; apply h.updRow; exact fun _ => rfl
  · exact h

theorem Evolves.requestClaims {t u : State} (h : Evolves s t) {who : Claim} {cs : List (Fin 48)}
    (hu : t.requestClaims who cs = some u) : Evolves s u := by
  unfold State.requestClaims at hu
  split at hu
  · obtain rfl := Option.some.inj hu
    refine h.updRows fun c r => ?_
    split <;> rfl
  · simp at hu

theorem Evolves.recordOutcome {t : State} (h : Evolves s t) (st : Station) (r : Request)
    (o : Outcome) (w : Option WhyEnded) : Evolves s (t.recordOutcome st r o w) := by
  unfold State.recordOutcome
  apply Evolves.raise
  apply h.updStation
  · exact fun _ l => l
  · exact fun _ => rfl

theorem Evolves.stationEnding {t : State} (h : Evolves s t) (st : Station) (o : Outcome)
    (w : Option WhyEnded) : Evolves s (t.stationEnding st o w) := by
  cases o
  case failedNoMove => exact h.updStation st StationRecord.lawful_failedNoMove StationRecord.outside_failedNoMove
  case failedMixed =>
    exact h.updStation st (fun r _ => StationRecord.lawful_failedMixed _ r)
      (StationRecord.outside_failedMixed _)
  all_goals exact h

theorem Evolves.failureEnding {t : State} (h : Evolves s t) (st : Station) (o : Outcome) :
    Evolves s (t.failureEnding st o) := by
  unfold State.failureEnding
  split
  case h_4 => exact h
  all_goals
    split
    · exact (h.handFault _ _).setFailure _ _
    · exact h

theorem Evolves.endTransition {e : Ev} (h : Evolves s e.s) (st : Station) (r : Option Request)
    (o : Outcome) (w : Option WhyEnded) : Evolves s (e.endTransition st r o w).s := by
  have h1 := (Evolves.releaseAll (e := e.on (State.removeTransition st (e.s.unit st).muted))
    (h.removeTransition st (e.s.unit st).muted) (.tu st)).stationEnding st o w
  unfold Ev.endTransition
  cases r
  · exact (h1.failureEnding st o).updUnit st _
  · exact ((h1.recordOutcome st _ o w).failureEnding st o).updUnit st _

theorem Evolves.finish {e : Ev} (h : Evolves s e.s) (st : Station) (o : Outcome)
    (w : Option WhyEnded) : Evolves s (e.finish st o w).s := h.endTransition ..

theorem Evolves.restore {e : Ev} (h : Evolves s e.s) (st : Station) (t : Snapshot) :
    Evolves s (e.restore st t).s := by
  have h1 := ((((h.updStation st (f := StationRecord.putInService t
      ((e.s.unit st).priority = some .protective)) (fun r _ => StationRecord.lawful_putInService t _ r)
      fun _ => rfl).evalRevised st).removeTransition st (e.s.unit st).muted).setFailure st none)
  have h2 := Evolves.releaseAll (e := ⟨_, e.due⟩) h1 (.tu st)
  unfold Ev.restore
  dsimp only
  split
  · exact h2.updUnit _ _
  · refine Evolves.updUnit (Evolves.requestSave ?_) _ _
    exact h2.updStation st (fun _ l => l) fun _ => rfl

theorem Evolves.takeRestore {e : Ev} (h : Evolves s e.s) (st : Station) :
    Evolves s (e.takeRestore st).s := by
  unfold Ev.takeRestore
  dsimp only
  split
  · exact h
  · split
    · exact h.finish ..
    · exact h.restore ..

/-! ### Driving -/

theorem Evolves.startBreach {t : State} (h : Evolves s t) (st : Station) :
    Evolves s (t.startBreach st) := h.updUnit _ _

theorem Evolves.muteStations {t : State} (h : Evolves s t) (st : Station) (set : StationSet) :
    Evolves s (t.muteStations st set) := by
  unfold State.muteStations
  dsimp only
  split
  · exact (h.placeTransition st set).attemptGrants
  · exact h.placeTransition st set

theorem Evolves.extendSets {t : State} (h : Evolves s t) (st : Station) (l : List (Fin 48)) :
    Evolves s (t.extendSets st l) := by
  unfold State.extendSets
  dsimp only
  split
  · exact (h.updUnit _ _).muteStations ..
  · exact ((h.updUnit _ _).muteStations ..).startBreach _

theorem Evolves.submitSubset {t : State} (h : Evolves s t) (st : Station) (l : List (Fin 48)) :
    Evolves s (t.submitSubset st l) := by
  unfold State.submitSubset
  dsimp only
  refine (Evolves.foldl (fun u c => ?_) _ (Evolves.updUnit ?_ _ _)).attemptGrants
  · split
    · split
      · exact (Evolves.refl u).submit ..
      · exact .refl u
    · exact .refl u
  · split
    · exact h
    · exact h.updStation st StationRecord.lawful_startMoving fun _ => rfl

theorem Evolves.enterHeld {t : State} (h : Evolves s t) (st : Station) (p : Fin 4) (n : Nat) :
    Evolves s (t.enterHeld st p n) := (h.updUnit _ _).raise _

theorem Evolves.driveFrom (st : Station) (tested : Bool) (idx : Nat) (l : List (List Setting))
    {e : Ev} (h : Evolves s e.s) : Evolves s (driveFrom st tested idx l e).s := by
  induction l generalizing tested idx e with
  | nil => exact h.takeRestore st
  | cons g l ih =>
    have h1 : Evolves s (e.on (State.updUnit st fun u => { u with stage := some idx })).s :=
      h.updUnit _ _
    unfold Machine.driveFrom
    dsimp only
    split
    · exact ih _ _ h1
    · split
      · exact Evolves.enterHeld (h1.extendSets _ _) _ _ _
      · split
        · exact Evolves.updUnit (h1.extendSets _ _) _ _
        · exact Evolves.submitSubset (h1.extendSets _ _) _ _

theorem Evolves.enterDriving {e : Ev} (h : Evolves s e.s) (st : Station) :
    Evolves s (e.enterDriving st).s :=
  Evolves.driveFrom st false 1 _ (h.updUnit _ _)

theorem Evolves.stageEnd {e : Ev} (h : Evolves s e.s) (st : Station) : Evolves s (e.stageEnd st).s :=
  Evolves.driveFrom st false _ _ h

theorem Evolves.resume {e : Ev} (h : Evolves s e.s) (st : Station) : Evolves s (e.resume st).s :=
  Evolves.driveFrom st true _ _ (h.updUnit _ _)

/-! ### Starting and claiming -/

theorem Evolves.enterMuting {e : Ev} (h : Evolves s e.s) (st : Station) :
    Evolves s (e.enterMuting st).s := by
  unfold Ev.enterMuting
  dsimp only
  split
  · exact Evolves.enterDriving ((h.muteStations _ _).updUnit _ _) st
  · exact (h.muteStations _ _).updUnit _ _

theorem Evolves.claimGranted {e : Ev} (h : Evolves s e.s) (st : Station) (p : Pattern) :
    Evolves s (e.claimGranted st p).s := by
  unfold Ev.claimGranted
  split
  · exact h.finish ..
  · dsimp only
    split
    · exact Evolves.takeRestore (h.updUnit _ _) st
    · exact Evolves.enterMuting (h.updUnit _ _) st

theorem Evolves.tryClaim {e : Ev} (h : Evolves s e.s) (st : Station) : Evolves s (e.tryClaim st).s := by
  unfold Ev.tryClaim
  split
  · exact h
  · split
    · exact h.finish ..
    · split
      · next u hu => exact Evolves.claimGranted (e := ⟨u, e.due⟩) (h.requestClaims hu) st _
      · exact h.updUnit _ _

theorem Evolves.failureRuns {t : State} (h : Evolves s t) (st : Station) (r : Request) :
    Evolves s (t.failureRuns st r) := by
  unfold State.failureRuns
  split
  · split
    · exact h.setFailure _ _
    · exact h
  · exact h

theorem Evolves.start {e : Ev} (h : Evolves s e.s) (st : Station) (r : Request) :
    Evolves s (e.start st r).s := by
  have h1 : Evolves s (e.on (State.failureRuns st r)).s := h.failureRuns st r
  unfold Ev.start
  dsimp only
  split
  · exact h1.endTransition ..
  · split
    · exact h1
    · exact Evolves.tryClaim (h1.updUnit _ _) st

/-! ### The pending slot -/

theorem Evolves.dropRequest {t : State} (h : Evolves s t) (st : Station) (r : Request) :
    Evolves s (t.dropRequest st r) := h.raise _

theorem Evolves.placeRequest {t : State} (h : Evolves s t) (st : Station) (r : Request) :
    Evolves s (t.placeRequest st r).1 := by
  unfold State.placeRequest
  split
  · exact h.updStation st (fun _ l => l) fun _ => rfl
  · exact h.dropRequest ..

theorem Evolves.intake {e : Ev} (h : Evolves s e.s) (st : Station) (r : Request) :
    Evolves s (e.intake st r).1.s := by
  unfold Ev.intake
  dsimp only
  split
  · split
    · exact h.start st r
    · split
      · exact h
      · exact h.placeRequest st r
  · split
    · split
      · exact (h.placeRequest st r).dropRequest ..
      · exact h.dropRequest ..
    · split
      · exact h
      · exact h.dropRequest ..

theorem Evolves.handOff {e : Ev} (h : Evolves s e.s) (st : Station) : Evolves s (e.handOff st).s := by
  unfold Ev.handOff
  split
  · exact h
  · split
    · refine Evolves.start ?_ st _
      exact h.updStation st (fun _ l => l) fun _ => rfl
    · exact h

/-! ### Closing -/

theorem Evolves.closingEvent {e : Ev} (h : Evolves s e.s) (st : Station) (c : Cause) :
    Evolves s (e.closingEvent st c).s := by
  cases c <;> exact h.finish ..

theorem Evolves.withdraw {e : Ev} (h : Evolves s e.s) (st : Station) : Evolves s (e.withdraw st).s := by
  unfold Ev.withdraw
  dsimp only [Ev.on]
  apply Evolves.releaseClaims
  refine Evolves.foldlEv (fun e c => (Evolves.refl e.s).carryRelease c) _ ?_
  dsimp only
  apply Evolves.updArbiter
  exact h.releaseClaims _ _

theorem Evolves.startClosing {e : Ev} (h : Evolves s e.s) (st : Station) (c : Cause) :
    Evolves s (e.startClosing st c).s := by
  have h1 : Evolves s ((e.on (State.updUnit st fun u => { u with
      closing := some c, timer := none, breach := none, heldBy := none, deferred := none })).withdraw st).s :=
    Evolves.withdraw (h.updUnit _ _) st
  unfold Ev.startClosing
  dsimp only
  split
  · exact Evolves.closingEvent (h1.updUnit _ _) st c
  · exact h1.updUnit _ _

theorem Evolves.outstandingEmptied {e : Ev} (h : Evolves s e.s) (st : Station) :
    Evolves s (e.outstandingEmptied st).s := by
  unfold Ev.outstandingEmptied
  split
  · exact h.closingEvent ..
  · exact h.stageEnd st

theorem Evolves.unitArrived {e : Ev} (h : Evolves s e.s) (st : Station) (c : Fin 48) :
    Evolves s (e.unitArrived st c).s := by
  unfold Ev.unitArrived
  split
  · dsimp only
    split
    · exact Evolves.outstandingEmptied ((h.updUnit _ _).updUnit _ _) st
    · exact (h.updUnit _ _).updUnit _ _
  · exact h

theorem Evolves.unitLost {e : Ev} (h : Evolves s e.s) (st : Station) (c : Fin 48) :
    Evolves s (e.unitLost st c).s := by
  unfold Ev.unitLost
  split
  · exact h
  · split
    · dsimp only
      split
      · exact Evolves.closingEvent (h.updUnit _ _) st _
      · exact h.updUnit _ _
    · exact h

theorem Evolves.unitStuck {e : Ev} (h : Evolves s e.s) (st : Station) (c : Fin 48) :
    Evolves s (e.unitStuck st c).s := by
  unfold Ev.unitStuck
  dsimp only
  split
  · exact h.unitLost st c
  · split
    · exact h.startClosing ..
    · exact h.startClosing ..
    · exact h

theorem Evolves.unitConflict {e : Ev} (h : Evolves s e.s) (st : Station) :
    Evolves s (e.unitConflict st).s := by
  unfold Ev.unitConflict
  dsimp only
  split
  · exact h
  · split
    · exact h.startClosing ..
    · exact h.startClosing ..
    · exact h.startClosing ..
    · exact h

/-! ### Manual moves and owners -/

theorem Evolves.endManual {e : Ev} (h : Evolves s e.s) : Evolves s e.endManual.s :=
  Evolves.releaseAll (e := e.on fun s => { s with manual := none }) (h.manual none) .manual

theorem Evolves.manualArrival {t : State} (h : Evolves s t) (c : Fin 48) :
    Evolves s (t.manualArrival c) := by
  unfold State.manualArrival
  split
  · exact h
  · refine h.foldl (fun u st => ?_) _
    split
    · split
      · exact .refl u
      · exact (Evolves.refl u).updStation st StationRecord.lawful_brokenByMove
          StationRecord.outside_brokenByMove
    · exact .refl u

theorem Evolves.ownerArrived {e : Ev} (h : Evolves s e.s) (o : PulseOwner) (c : Fin 48) :
    Evolves s (e.ownerArrived o c).s := by
  cases o
  · exact h.unitArrived _ c
  · exact Evolves.endManual (e := e.on (State.manualArrival c)) (h.manualArrival c)

theorem Evolves.ownerStuck {e : Ev} (h : Evolves s e.s) (o : PulseOwner) (c : Fin 48) :
    Evolves s (e.ownerStuck o c).s := by
  cases o
  · exact h.unitStuck _ c
  · exact h.endManual

/-! ### Follow-ups and the end of an event -/

theorem Evolves.take {e : Ev} (h : Evolves s e.s) (x : FollowUp) : Evolves s (e.take x).s := by
  cases x
  · exact h.raceOrder _
  · unfold Ev.take
    dsimp only
    split
    · exact h.tryClaim _
    · exact h
  · exact h.handOff _
  · exact h.raceOrder _

theorem Evolves.runDue (n : Nat) {e : Ev} (h : Evolves s e.s) : Evolves s (runDue n e) := by
  induction n generalizing e with
  | zero => exact h.attemptGrants
  | succ n ih =>
    unfold Machine.runDue
    dsimp only
    split
    · exact h.attemptGrants
    · next x rest _ => exact ih (Evolves.take (e := ⟨e.s.attemptGrants, rest⟩) h.attemptGrants x)

/-- The end of an event: the tables, the clock, the link, the queue of commands and the sensed side of the
contactor table stay as the event's own actions left them. -/
theorem Evolves.settle {e : Ev} (h : Evolves s e.s) : Evolves s e.settle :=
  (h.runDue 64).superviseBoth

end Sys2Proof.Machine
end

