-- ==== Sys2Proof/Laws/Settled.lean ====
section
/-! SUPPORT. What the end of an event leaves: supervision follows its terms and nothing that could be granted
waits; and an event that is settled already ends as it stands. -/

namespace Sys2Proof.Machine

variable {s t : State}

/-! ### Supervision -/

/-- Supervision's terms are read from the station, its unit and its open failure alone. -/
theorem State.supervisionApplies_congr (st : Station) (h1 : t.station st = s.station st)
    (h2 : t.unit st = s.unit st) (h3 : t.monitor.failures = s.monitor.failures) :
    t.supervisionApplies st = s.supervisionApplies st := by
  unfold State.supervisionApplies
  rw [h1, h2, h3]

theorem State.supervise_fields (st : Station) (s : State) :
    (s.supervise st).stations = s.stations ∧ (s.supervise st).units = s.units ∧
    (s.supervise st).rows = s.rows ∧ (s.supervise st).arbiter = s.arbiter ∧
    (s.supervise st).tables = s.tables ∧ (s.supervise st).monitor.failures = s.monitor.failures ∧
    (s.supervise st).store = s.store ∧ (s.supervise st).commit = s.commit ∧
    (s.supervise st).manual = s.manual ∧ (s.supervise st).attention = s.attention ∧
    (s.supervise st).races = s.races ∧
    (s.supervise st).monitor.supervised = s.monitor.supervised.set st (s.supervisionApplies st) := by
  unfold State.supervise
  dsimp only
  split
  · next h =>
    refine ⟨rfl, rfl, rfl, rfl, rfl, rfl, rfl, rfl, rfl, rfl, rfl, ?_⟩
    rw [h]
    cases st <;> rfl
  · exact ⟨rfl, rfl, rfl, rfl, rfl, rfl, rfl, rfl, rfl, rfl, rfl, rfl⟩

/-- Supervision of both stations changes the reading table alone. -/
theorem State.superviseBoth_fields (s : State) :
    s.superviseBoth.stations = s.stations ∧ s.superviseBoth.units = s.units ∧
    s.superviseBoth.rows = s.rows ∧ s.superviseBoth.arbiter = s.arbiter ∧
    s.superviseBoth.tables = s.tables ∧ s.superviseBoth.monitor.failures = s.monitor.failures ∧
    s.superviseBoth.store = s.store ∧ s.superviseBoth.commit = s.commit ∧
    s.superviseBoth.manual = s.manual ∧ s.superviseBoth.attention = s.attention ∧
    s.superviseBoth.races = s.races := by
  have a := State.supervise_fields .A s
  have b := State.supervise_fields .B (s.supervise .A)
  unfold State.superviseBoth
  simp [a, b]

theorem State.superviseBoth_follows (s : State) : s.superviseBoth.supervisionFollows := by
  have a := State.supervise_fields .A s
  have b := State.supervise_fields .B (s.supervise .A)
  have f := s.superviseBoth_fields
  intro st
  rw [State.supervisionApplies_congr (s := s) st (by simp only [State.station, f])
    (by simp only [State.unit, f]) f.2.2.2.2.2.1]
  have hb : (s.supervise .A).supervisionApplies .B = s.supervisionApplies .B :=
    State.supervisionApplies_congr .B (by simp only [State.station, a])
      (by simp only [State.unit, a]) a.2.2.2.2.2.1
  unfold State.superviseBoth
  rw [b.2.2.2.2.2.2.2.2.2.2.2, a.2.2.2.2.2.2.2.2.2.2.2, hb]
  cases st <;> rfl

theorem State.superviseBoth_of_follows (h : s.supervisionFollows) : s.superviseBoth = s := by
  have hs (st : Station) : s.supervise st = s := by
    unfold State.supervise
    dsimp only
    rw [if_pos (h st).symm]
  unfold State.superviseBoth
  rw [hs, hs]

/-! ### Grants -/

/-- Whether a path is safe is read from the paths, the carriers and the permits alone. -/
theorem State.entrySafe_congr (h1 : ∀ c, (t.row c).path = (s.row c).path)
    (h2 : t.stations = s.stations) (q : QueueEntry) : t.entrySafe q = s.entrySafe q := by
  unfold State.entrySafe State.pathSafe State.station
  rw [h1, h2]

theorem State.grantEntry_fields (q : QueueEntry) (s : State) :
    (∀ c, ((s.grantEntry q).row c).path = (s.row c).path) ∧
    (s.grantEntry q).stations = s.stations ∧ (s.grantEntry q).tables = s.tables ∧
    (s.grantEntry q).arbiter.queue = s.arbiter.queue.filter (fun x => x.contactor ≠ q.contactor) ∧
    (s.grantEntry q).arbiter.pulses.length = s.arbiter.pulses.length + 1 := by
  unfold State.grantEntry
  refine ⟨fun c => ?_, ?_, ?_, ?_, ?_⟩
  · have h := ((Evolves.refl s).grantEntry q).rows c
    simp only [Row.sensedSide, Prod.mk.injEq] at h
    exact h.1
  all_goals (split <;> simp [State.dequeue])

/-- What grants leave alone: everything but the arbiter, a granted row's commanded position and hot mark, and
the mark that a pulse was granted to a unit. -/
structure Granted (s t : State) : Prop where
  stations : t.stations = s.stations
  tables : t.tables = s.tables
  manual : t.manual = s.manual
  commit : t.commit = s.commit
  store : t.store = s.store
  monitor : t.monitor = s.monitor
  attention : t.attention = s.attention
  races : t.races = s.races
  claims : ∀ c, (t.row c).claim = (s.row c).claim ∧ (t.row c).releaseDue = (s.row c).releaseDue
  units : ∀ st, ∃ b, t.unit st = { s.unit st with drove := b }

theorem Granted.refl (s : State) : Granted s s :=
  ⟨rfl, rfl, rfl, rfl, rfl, rfl, rfl, rfl, fun _ => ⟨rfl, rfl⟩, fun st => ⟨(s.unit st).drove, rfl⟩⟩

theorem Granted.trans {s t u : State} (a : Granted s t) (b : Granted t u) : Granted s u where
  stations := b.stations.trans a.stations
  tables := b.tables.trans a.tables
  manual := b.manual.trans a.manual
  commit := b.commit.trans a.commit
  store := b.store.trans a.store
  monitor := b.monitor.trans a.monitor
  attention := b.attention.trans a.attention
  races := b.races.trans a.races
  claims c := ⟨(b.claims c).1.trans (a.claims c).1, (b.claims c).2.trans (a.claims c).2⟩
  units st := by
    obtain ⟨x, hx⟩ := a.units st
    obtain ⟨y, hy⟩ := b.units st
    exact ⟨y, by rw [hy, hx]⟩

theorem State.grantEntry_granted (q : QueueEntry) (s : State) : Granted s (s.grantEntry q) := by
  unfold State.grantEntry
  constructor
  case claims =>
    intro c
    split <;>
    · simp only [State.row, State.updUnit_fields, State.updRow_fields, State.updArbiter_fields,
        State.dequeue, Fin.getElem_fin, Vector.getElem_set]
      split <;> simp_all
  case units =>
    intro st
    split
    · next u _ =>
      by_cases h : st = u
      · subst h
        exact ⟨true, by rw [State.unit_updUnit, if_pos rfl]; rfl⟩
      · exact ⟨(s.unit st).drove, by rw [State.unit_updUnit, if_neg h]; rfl⟩
    · exact ⟨(s.unit st).drove, rfl⟩
  all_goals (split <;> rfl)

theorem grantWalk_granted (l : List QueueEntry) (t : State) : Granted t (grantWalk l t) := by
  induction l generalizing t with
  | nil => exact .refl t
  | cons q l ih =>
    unfold Machine.grantWalk
    split
    · exact (State.grantEntry_granted q t).trans (ih _)
    · exact ih t

theorem State.attemptGrants_granted (s : State) : Granted s s.attemptGrants := grantWalk_granted _ _

/-- A place is free for a grant. -/
def State.placeFree (s : State) : Prop := s.arbiter.pulses.length < s.tables.site.concurrency

theorem grantWalk_of_full (l : List QueueEntry) (h : ¬ t.placeFree) : grantWalk l t = t := by
  induction l with
  | nil => rfl
  | cons q l ih =>
    unfold Machine.grantWalk
    rw [if_neg fun x => h x.1]
    exact ih

theorem grantWalk_of_unsafe (l : List QueueEntry) (h : ∀ q ∈ l, t.entrySafe q = false) :
    grantWalk l t = t := by
  induction l with
  | nil => rfl
  | cons q l ih =>
    unfold Machine.grantWalk
    rw [if_neg fun x => by rw [h q (.head l)] at x; exact Bool.false_ne_true x.2]
    exact ih fun p hp => h p (.tail q hp)

theorem State.attemptGrants_of_done (h : s.grantsDone) : s.attemptGrants = s := by
  rcases h with h | h
  · exact grantWalk_of_full _ (Nat.not_lt.mpr h)
  · exact grantWalk_of_unsafe _ h

theorem grantWalk_done (l : List QueueEntry)
    (h : ∀ q ∈ t.arbiter.queue, q ∈ l ∨ t.entrySafe q = false) : (grantWalk l t).grantsDone := by
  induction l generalizing t with
  | nil => exact .inr fun q hq => (h q hq).elim (by simp) id
  | cons q l ih =>
    by_cases full : t.placeFree
    · unfold Machine.grantWalk
      have f := t.grantEntry_fields q
      split
      · refine ih fun p hp => ?_
        rw [f.2.2.2.1, List.mem_filter] at hp
        rw [State.entrySafe_congr f.1 f.2.1]
        rcases h p hp.1 with hm | hm
        · rcases List.mem_cons.mp hm with e | hm
          · subst e
            simp at hp
          · exact .inl hm
        · exact .inr hm
      · next hn =>
        refine ih fun p hp => ?_
        rcases h p hp with hm | hm
        · rcases List.mem_cons.mp hm with e | hm
          · subst e
            exact .inr (by cases hs : t.entrySafe p <;> simp_all [State.placeFree])
          · exact .inl hm
        · exact .inr hm
    · rw [grantWalk_of_full _ full]
      exact .inl (Nat.not_lt.mp full)

theorem State.attemptGrants_done (s : State) : s.attemptGrants.grantsDone :=
  grantWalk_done _ fun _ h => .inl h

theorem State.grantsDone_congr (h1 : ∀ c, (t.row c).path = (s.row c).path)
    (h2 : t.stations = s.stations) (h3 : t.tables = s.tables) (h4 : t.arbiter.queue = s.arbiter.queue)
    (h5 : t.arbiter.pulses.length = s.arbiter.pulses.length) (h : s.grantsDone) : t.grantsDone := by
  unfold State.grantsDone at *
  rw [h3, h4, h5]
  exact h.imp id fun x q hq => by rw [State.entrySafe_congr h1 h2]; exact x q hq

/-! ### The end of an event -/

/-- Follow-ups leave nothing waiting that could be granted. -/
theorem runDue_done (n : Nat) (e : Ev) : (runDue n e).grantsDone := by
  induction n generalizing e with
  | zero => exact State.attemptGrants_done _
  | succ n ih =>
    unfold Machine.runDue
    dsimp only
    split
    · exact State.attemptGrants_done _
    · exact ih _

theorem Ev.settle_settled (e : Ev) : e.settle.settled := by
  refine ⟨State.superviseBoth_follows _, ?_⟩
  have f := (runDue 64 e).superviseBoth_fields
  refine State.grantsDone_congr (fun c => ?_) f.1 f.2.2.2.2.1 ?_ ?_ (runDue_done _ _)
  · simp only [State.row, show e.settle.rows = _ from f.2.2.1]
  · rw [show e.settle.arbiter = _ from f.2.2.2.1]
  · rw [show e.settle.arbiter = _ from f.2.2.2.1]

/-- An event with nothing due ends with its grant attempt and supervision. -/
theorem Ev.settle_of_due (e : Ev) (hd : e.due = []) :
    e.settle = e.s.attemptGrants.superviseBoth := by
  have hr : runDue 64 e = e.s.attemptGrants := by
    unfold Machine.runDue
    rw [hd]
  unfold Ev.settle
  rw [hr]

/-- An event that has nothing due in a settled state ends as it stands. -/
theorem Ev.settle_of_settled (e : Ev) (hd : e.due = []) (h : e.s.settled) : e.settle = e.s := by
  rw [Ev.settle_of_due e hd, State.attemptGrants_of_done h.2, State.superviseBoth_of_follows h.1]

/-- A state that differs from a settled one in nothing that supervision's terms and the grants read. -/
theorem State.settled_congr (h1 : ∀ c, (t.row c).path = (s.row c).path) (h2 : t.stations = s.stations)
    (h3 : t.tables = s.tables) (h4 : t.arbiter.queue = s.arbiter.queue)
    (h5 : t.arbiter.pulses.length = s.arbiter.pulses.length) (h6 : t.units = s.units)
    (h7 : t.monitor.failures = s.monitor.failures) (h8 : t.monitor.supervised = s.monitor.supervised)
    (h : s.settled) : t.settled := by
  refine ⟨fun st => ?_, State.grantsDone_congr h1 h2 h3 h4 h5 h.2⟩
  rw [h8, h.1 st]
  exact (State.supervisionApplies_congr st (by simp only [State.station, h2])
    (by simp only [State.unit, h6]) h7).symm

/-- The same, for states whose station records and units agree only in what supervision and the grants read. -/
theorem State.settled_congr' (h1 : ∀ c, (t.row c).path = (s.row c).path)
    (h2 : ∀ st, (t.station st).arrayState = (s.station st).arrayState ∧
      (t.station st).inService = (s.station st).inService ∧
      (t.station st).claims = (s.station st).claims ∧ (t.station st).carrier = (s.station st).carrier)
    (h3 : t.tables.site.concurrency = s.tables.site.concurrency)
    (h4 : t.arbiter.queue = s.arbiter.queue)
    (h5 : t.arbiter.pulses.length = s.arbiter.pulses.length)
    (h6 : ∀ st, (t.unit st).phase = (s.unit st).phase)
    (h7 : t.monitor.failures = s.monitor.failures) (h8 : t.monitor.supervised = s.monitor.supervised)
    (h : s.settled) : t.settled := by
  constructor
  · intro st
    rw [h8, h.1 st]
    unfold State.supervisionApplies StationRecord.permit
    dsimp only
    rw [(h2 st).1, (h2 st).2.1, (h2 st).2.2.1, h6, h7]
  · have he (q : QueueEntry) : t.entrySafe q = s.entrySafe q := by
      unfold State.entrySafe State.pathSafe StationRecord.permit
      rw [h1]
      simp only [h2]
    unfold State.grantsDone
    rw [h3, h4, h5]
    exact h.2.imp id fun x q hq => by rw [he]; exact x q hq

/-! ### Follow-ups that find nothing waiting -/

theorem Ev.take_of_nothingWaits (x : FollowUp) (e : Ev) (h : e.s.nothingWaits) :
    (e.take x).s = e.s := by
  have hw (st : Station) : (e.s.unit st).waiting = false := (h st).1
  have hr (st : Station) : (e.s.station st).request = none := (h st).2
  cases x <;> simp [Ev.take, State.raceOrder, hw, hr, Ev.handOff]

/-- What a follow-up that finds nothing waiting puts before those already due: hand-offs that find nothing
either. -/
theorem Ev.take_due_of_nothingWaits (x : FollowUp) (e : Ev) (h : e.s.nothingWaits) :
    (e.take x).due =
      (match x with | .handOffs => [.handOff .A, .handOff .B] | _ => []) ++ e.due := by
  have hw (st : Station) : (e.s.unit st).waiting = false := (h st).1
  have hr (st : Station) : (e.s.station st).request = none := (h st).2
  cases x <;> simp [Ev.take, State.raceOrder, hw, hr, Ev.handOff]

theorem State.nothingWaits_attemptGrants (h : s.nothingWaits) : s.attemptGrants.nothingWaits := fun st => by
  have g := s.attemptGrants_granted
  obtain ⟨b, hb⟩ := g.units st
  exact ⟨by rw [hb]; exact (h st).1, by simp only [State.station, g.stations]; exact (h st).2⟩

theorem State.attemptGrants_idem (s : State) : s.attemptGrants.attemptGrants = s.attemptGrants :=
  State.attemptGrants_of_done s.attemptGrants_done

/-- Follow-ups that find nothing waiting leave the state as one grant attempt does. -/
theorem runDue_of_nothingWaits (n : Nat) (e : Ev) (h : e.s.nothingWaits) :
    runDue n e = e.s.attemptGrants := by
  induction n generalizing e with
  | zero => rfl
  | succ n ih =>
    unfold runDue
    dsimp only
    split
    · rfl
    · next x rest _ =>
      have hw := State.nothingWaits_attemptGrants h
      have hs := Ev.take_of_nothingWaits x { s := e.s.attemptGrants, due := rest } hw
      rw [ih _ (by rw [hs]; exact hw), hs, State.attemptGrants_idem]

/-- An event after which nothing waits ends with its grant attempt and supervision. -/
theorem Ev.settle_of_nothingWaits (e : Ev) (h : e.s.nothingWaits) :
    e.settle = e.s.attemptGrants.superviseBoth := by
  unfold Ev.settle
  rw [runDue_of_nothingWaits 64 e h]

end Sys2Proof.Machine
end

