-- ==== Sys2Proof/Laws/Answers.lean ====
section
/-! SUPPORT. Every meaning answers a next state whose output pins show what drives them; a request of the summary
is answered as `serve` answers it. -/

namespace Sys2Proof.Machine

/-- The outcome is a next state with its pins driven. -/
def Answers (o : Host.Outcome State Fault Refusal) : Prop := ∃ u : State, o = .next u.drivePins

theorem Ev.answers (e : Ev) : Answers e.conclude := ⟨_, rfl⟩

theorem State.answers (s : State) : Answers s.conclude := ⟨_, rfl⟩

theorem answerQuiet_answers (r : Req) (owner : List Byte → State → State × Reply) (f : List Byte)
    (s : State) : Answers (answerQuiet r owner f s) := by
  unfold answerQuiet
  split <;> exact State.answers _

theorem answerActive_answers (r : Req) (owner : List Byte → Ev → Ev × Reply) (f : List Byte)
    (s : State) : Answers (answerActive r owner f s) := by
  unfold answerActive
  split
  · exact State.answers _
  · exact Ev.answers _

theorem State.serve_answers (r : Req) (f : List Byte) (s : State) : Answers (s.serve r f) := by
  cases r <;> dsimp only [State.serve] <;> first
    | with_reducible exact answerQuiet_answers ..
    | with_reducible exact answerActive_answers ..

theorem State.serveUnknown_answers (code : Byte) (s : State) : Answers (s.serveUnknown code) := by
  unfold State.serveUnknown
  split <;> exact State.answers _

theorem State.takeRequest_answers (dt : Nat) (r : Req) (f : List Byte) (s : State) :
    Answers (s.takeRequest dt r f) := by
  unfold State.takeRequest
  split
  · exact State.serve_answers ..
  · exact State.answers _

theorem State.hostFrameByte_answers (bytes : List Byte) (s : State) :
    Answers (s.hostFrameByte bytes) := by
  unfold State.hostFrameByte State.hostFrame
  dsimp only
  repeat' split
  all_goals first
    | with_reducible exact State.answers _
    | with_reducible exact State.serve_answers ..
    | with_reducible exact State.serveUnknown_answers ..

/-- The command of a request is taken as the request. -/
theorem exec_command (r : Req) (dt : Nat) (f : List Byte) (s : State) :
    exec (r.command dt f) s = s.takeRequest dt r f := by
  cases r <;> rfl

/-! ### A request that the link takes -/

theorem State.linkRefusal_of_takes {s : State} {r : Req} {f : List Byte} (h : s.takes r f) (dt : Nat) :
    (s.elapse dt).linkRefusal r f = none := by
  obtain ⟨h1, _, h3, h4⟩ := h
  unfold State.linkRefusal
  simp only [State.elapse_fields, h1, h3]
  cases hn : r.needsAuthority
  · rfl
  · simp [h4 hn]

/-- The command of a request that the link takes is answered as the request is served. -/
theorem exec_of_takes {s : State} {r : Req} {f : List Byte} (h : s.takes r f) (dt : Nat) :
    exec (r.command dt f) s = (s.elapse dt).serve r f := by
  rw [exec_command]
  unfold State.takeRequest
  rw [if_pos (by simpa [State.listening] using h.2.1)]

theorem answerQuiet_of_takes {s : State} {r : Req} {f : List Byte} (h : s.takes r f) (dt : Nat)
    (owner : List Byte → State → State × Reply) :
    answerQuiet r owner f (s.elapse dt) =
      .next ((owner f (s.elapse dt)).1.respond r.byte (owner f (s.elapse dt)).2).drivePins := by
  unfold answerQuiet
  rw [State.linkRefusal_of_takes h]
  rfl

theorem answerActive_of_takes {s : State} {r : Req} {f : List Byte} (h : s.takes r f) (dt : Nat)
    (owner : List Byte → Ev → Ev × Reply) :
    answerActive r owner f (s.elapse dt) =
      ((owner f (s.elapse dt).event).1.on
        (State.respond r.byte (owner f (s.elapse dt).event).2)).conclude := by
  unfold answerActive
  rw [State.linkRefusal_of_takes h]

/-- An owner that leaves nothing due in a settled state is answered as it stands. -/
theorem answerActive_of_settled {s : State} {r : Req} {f : List Byte} (h : s.takes r f) (dt : Nat)
    (owner : List Byte → Ev → Ev × Reply) (hd : (owner f (s.elapse dt).event).1.due = [])
    (hs : (owner f (s.elapse dt).event).1.s.settled) :
    answerActive r owner f (s.elapse dt) =
      .next ((owner f (s.elapse dt).event).1.s.respond r.byte
        (owner f (s.elapse dt).event).2).drivePins := by
  rw [answerActive_of_takes h]
  unfold Ev.conclude
  rw [Ev.settle_of_settled ((owner f (s.elapse dt).event).1.on
    (State.respond r.byte (owner f (s.elapse dt).event).2)) hd
    (State.settled_congr (fun _ => rfl) rfl rfl rfl rfl rfl rfl rfl hs)]
  rfl

theorem State.settled_elapse {s : State} (h : s.settled) (dt : Nat) : (s.elapse dt).settled :=
  State.settled_congr (fun _ => rfl) rfl rfl rfl rfl rfl rfl rfl h

/-! ### A look at the store -/

theorem WriteStep.code_le_later (a b : WriteStep) : WriteStep.code a ≤ WriteStep.code (WriteStep.later a b) := by
  unfold WriteStep.later
  split
  · assumption
  · exact Nat.le_refl _

/-- READ_STORE leaves the state as it is but for the count of looks and the step shown, which never falls. -/
theorem State.lookAtStore_spec (s : State) :
    ∃ x : WriteStep, (∀ job, s.store.running = some job → WriteStep.code job.step ≤ WriteStep.code x) ∧
      s.lookAtStore = { s with
        storeLooks := s.storeLooks + 1
        store := { s.store with running := s.store.running.map fun job => { job with step := x } } } := by
  unfold State.lookAtStore
  cases h : s.store.running with
  | none => exact ⟨.erase, nofun, rfl⟩
  | some job => exact ⟨_, fun j e => by cases e; exact WriteStep.code_le_later _ _, rfl⟩

/-! ### Every command -/

theorem exec_answers (c : Instr) (s : State) : Answers (exec c s) := by
  cases c
  case hostByteReceived dt byte =>
    unfold exec execHostByteReceived
    dsimp only
    repeat' split
    all_goals first
      | with_reducible exact State.answers _
      | with_reducible exact State.hostFrameByte_answers ..
  case unknownRequest dt code fields =>
    unfold exec execUnknownRequest
    dsimp only
    split
    · exact State.serveUnknown_answers ..
    · exact State.answers _
  all_goals first
    | (dsimp only [exec, execLookup, execLookupNext, execReadStation, execReadTransition,
         execReadContactor, execReadReadings, execReadClock, execReadStore, execReadHolds, execStage,
         execAmend, execRetire, execDiscard, execDiscardAll, execCommit, execSetClock,
         execResetCounters, execClearContactorFault, execTransition, execAbort, execContinue,
         execSetHold, execClearHold, execCarrierHold, execCarrierRelease, execManualMove,
         execSuspendSchedule, execResumeSchedule, execSaveCounters, execPresentCode, execRevoke,
         execReadAttention, execClearAttention, execMaskAttention]
       with_reducible exact State.takeRequest_answers ..)
    | (dsimp only [exec, execPowerOnReset, execExternalReset, execStoreStartupEnd, execFeedbackScan,
         execCarrierChangeAccepted, execCoilDriveEnd, execTravelLimitRetry, execTravelLimitStuck,
         execCarrierOffWaitExpiry, execHoldLimitExpiry, execBreachWaitExpiry, execSettleExpiry,
         execVerifyTimeout, execMonitorFrame, execMonitorFrameGap, execSilenceExpiry, execTrefPulse,
         execTrefMissingPulse, execTrefLost, execInternalBoundary, execClockSourceAbsentAtStart,
         execSegmentWriteDone, execMarkerWriteDone, execWriteFault, execHostFrameDiscard,
         execHostFrameTimeout, execResponseSent, execLockOutExpiry, execMonitorByteReceived]
       repeat' split
       all_goals first
         | with_reducible exact State.answers _
         | with_reducible exact Ev.answers _)

end Sys2Proof.Machine
end

