-- ==== Sys2Proof/Laws/Grants.lean ====
section
/-! SUPPORT. What a grant attempt does: it grants by R89 and R91 within the coil concurrency, and marks the unit of
each pulse it grants. And what carrying out a recorded release does. -/

namespace Sys2Proof.Machine

variable {s t : State}

/-- The pulse that the grant of an entry puts in progress (R91). -/
def State.pulseFor (s : State) (q : QueueEntry) : Pulse :=
  { entry := q, granted := s.now, driveEnd := some (s.now + s.tables.site.coilPulse),
    travelEnd := s.now + s.tables.site.travelLimit }

/-- Everything one grant writes but the queue (R91, R118). -/
theorem State.grantEntry_spec (q : QueueEntry) (s : State) :
    (s.grantEntry q).now = s.now ∧
    (s.grantEntry q).arbiter.pulses = s.arbiter.pulses ++ [s.pulseFor q] ∧
    (∀ c, (s.grantEntry q).row c =
      if c = q.contactor then { s.row c with commanded := some q.target, hotMark := StationSet.empty }
      else s.row c) ∧
    (∀ u, (s.grantEntry q).unit u =
      { s.unit u with drove := (s.unit u).drove || decide (q.owner = .tu u) }) := by
  unfold State.grantEntry
  refine ⟨?_, ?_, fun c => ?_, fun u => ?_⟩
  · split <;> rfl
  · split <;> rfl
  · have rows {x : State} {st f} : (x.updUnit st f).row c = x.row c := rfl
    have base {f} : ((s.dequeue q.contactor).updArbiter f).row c = s.row c := rfl
    split
    · rw [rows, State.row_updRow, base]
    · rw [State.row_updRow, base]
  · split
    · next st h =>
      rw [State.unit_updUnit, h]
      by_cases e : u = st
      · subst e
        simp only [if_pos, decide_true, Bool.or_true]
        rfl
      · have : (PulseOwner.tu st = .tu u) ↔ False := by simp [Ne.symm e]
        simp only [if_neg e, this, decide_false, Bool.or_false]
        rfl
    · next h =>
      simp only [h, reduceCtorEq, decide_false, Bool.or_false]
      rfl

/-- What holds between the state a grant attempt begins in and every state of its walk. -/
structure Grants (s t : State) : Prop where
  now : t.now = s.now
  tables : t.tables = s.tables
  stations : t.stations = s.stations
  paths : ∀ c, (t.row c).path = (s.row c).path
  lawful : s.grantsLawfully t
  units : ∀ u, s.sameUnit t u

theorem Grants.refl (s : State) : Grants s s where
  now := rfl
  tables := rfl
  stations := rfl
  paths _ := rfl
  lawful := by simp [State.grantsLawfully, State.newPulses]
  units u := by simp [State.sameUnit, State.grantedTo, State.newPulses]

theorem Grants.grantEntry (h : Grants s t) {q : QueueEntry}
    (free : t.placeFree) (safe : t.entrySafe q = true) : Grants s (t.grantEntry q) := by
  obtain ⟨now, pulses, rows, units⟩ := t.grantEntry_spec q
  have f := t.grantEntry_fields q
  obtain ⟨eq, _, each, commanded, others⟩ := h.lawful
  have new : s.newPulses (t.grantEntry q) = s.newPulses t ++ [t.pulseFor q] := by
    unfold State.newPulses at *
    rw [pulses, eq]
    simp
  have station (w : Station) : (t.grantEntry q).station w = t.station w := by
    simp only [State.station, f.2.1]
  refine ⟨now.trans h.now, f.2.2.1.trans h.tables, f.2.1.trans h.stations,
    fun c => (f.1 c).trans (h.paths c), ⟨?_, fun _ => ?_, fun p hp => ?_, fun nodup p hp => ?_, fun c hc => ?_⟩,
    fun u => ?_⟩
  · rw [new, pulses, eq, List.append_assoc]
  · rw [f.2.2.2.2, ← h.tables]
    exact free
  · rw [new, List.mem_append, List.mem_singleton] at hp
    rw [now, rows]
    simp only [station]
    rcases hp with hp | rfl
    · obtain ⟨a, b, c, d, e⟩ := each p hp
      refine ⟨a, b, c, ?_, e⟩
      split
      · rfl
      · exact d
    · refine ⟨rfl, by rw [← h.tables]; rfl, by rw [← h.tables]; rfl, ?_, ?_⟩
      · rw [show (t.pulseFor q).entry.contactor = q.contactor from rfl, if_pos rfl]
        rfl
      · rw [← h.paths]
        show ∃ path, (t.row q.contactor).path = some path ∧ _
        unfold State.entrySafe at safe
        split at safe
        · next path hpath =>
          refine ⟨path, hpath, fun w hw => ?_⟩
          have member : w ∈ path.stations.members := by
            cases path <;> cases w <;> first | decide | exact absurd hw (by decide)
          simpa using List.all_eq_true.mp safe w member
        · exact absurd safe (by decide)
  · rw [new] at nodup hp
    rw [List.map_append, List.map_singleton] at nodup
    rw [rows]
    rcases List.mem_append.mp hp with hp | hp
    · have ne : p.entry.contactor ≠ q.contactor := fun e =>
        (List.nodup_append.mp nodup).2.2 _ (List.mem_map_of_mem hp) _ (List.mem_singleton.mpr rfl) e
      rw [if_neg ne]
      exact commanded (List.nodup_append.mp nodup).1 p hp
    · rw [List.mem_singleton.mp hp]
      show (if q.contactor = q.contactor then _ else _ : Row).commanded = _
      rw [if_pos rfl]
      rfl
  · rw [new] at hc
    have ne : c ≠ q.contactor := fun e => hc _ (List.mem_append_right _ (.head _)) e.symm
    rw [rows, if_neg ne]
    exact others c fun p hp => hc p (List.mem_append_left _ hp)
  · have := h.units u
    unfold State.sameUnit State.grantedTo at *
    rw [units, this, new, List.any_append, List.any_cons, List.any_nil, Bool.or_false, Bool.or_assoc]
    rfl

/-- A grant attempt grants lawfully, and changes a unit only by the mark of a pulse granted to it (R89 to R91,
R118). -/
theorem State.attemptGrants_grants (s : State) : Grants s s.attemptGrants := by
  suffices walk : ∀ (l : List QueueEntry) (t : State), Grants s t → Grants s (grantWalk l t) from
    walk _ _ (.refl s)
  intro l
  induction l with
  | nil => exact fun _ h => h
  | cons q l ih =>
    intro t h
    unfold Machine.grantWalk
    split
    · next x => exact ih _ (h.grantEntry x.1 x.2)
    · exact ih _ h

/-- A recorded release frees its contactor once no pulse of it is queued or in progress, and changes no other row
(R15, R16). -/
theorem Ev.carryRelease_row (c d : Fin 48) (e : Ev) :
    (e.carryRelease c).s.row d =
      if d = c ∧ (e.s.row c).releaseDue = true ∧ e.s.inMotion c = false then
        { e.s.row d with claim := .none, releaseDue := false }
      else e.s.row d := by
  unfold Ev.carryRelease
  by_cases h : ((e.s.row c).releaseDue && !e.s.inMotion c) = true
  · rw [if_pos h]
    simp only [Bool.and_eq_true, Bool.not_eq_true'] at h
    simp only [Ev.push, Ev.on, State.row_updRow, h.1, h.2, and_self, and_true]
  · rw [if_neg h]
    simp only [Bool.and_eq_true, Bool.not_eq_true'] at h
    rw [if_neg fun x => h x.2]

end Sys2Proof.Machine
end

