-- ==== Sys2Proof/Tests/Slice0.lean ====
section
/-! SUPPORT. Tests on small states: the checks of well-formed commands, the meanings of single commands, and for
every statement with hypotheses a state and operands that meet them, clause by clause. -/

namespace Sys2Proof.Tests

open Sys2Proof Sys2Proof.Machine

set_option Elab.async false

/-! ### Well-formed commands -/

theorem test_wellFormed_refuses_long_fields :
    (Instr.readClock 0 (List.replicate 250 0)).wellFormed = false := by decide +kernel

theorem test_wellFormed_refuses_summary_code :
    (Instr.unknownRequest 0 0x10 []).wellFormed = false := by decide

theorem test_wellFormed_refuses_many_places :
    (Instr.feedbackScan 0 (List.replicate 49 (true, false)) []).wellFormed = false := by decide +kernel

theorem test_wellFormed_refuses_repeated_row :
    (Instr.feedbackScan 0 [] [3, 3]).wellFormed = false := by decide

theorem test_wellFormed_admits :
    (Instr.unknownRequest 0 0x50 []).wellFormed = true ∧
    (Instr.feedbackScan 0 (List.replicate 48 (true, false)) [3, 2]).wellFormed = true ∧
    (Instr.readClock 0 []).wellFormed = true := by decide +kernel

theorem test_no_word_spells_a_command : decodeTableWord 32 5 = none := rfl

/-! ### Small states -/

/-- A part without records, its start-up ended, authority held. -/
def ready : State :=
  { State.reset with started := true, link := { State.reset.link with authority := true } }

def site : Site :=
  { Site.blank with
    config := Vector.ofFn fun c : Fin 48 =>
      if c = 0 then some .a else if c = 1 then some .ab else if c = 2 then some .b else none
    towers := ⟨0xFF, 0xFF⟩ }

def day : Pattern :=
  { station := .A, label := [], powerStep := 2, stages := [[⟨0, .one⟩], [⟨1, .two⟩]],
    windows := [⟨0, 100, 200, 0, 10⟩], settle := 5, fallback := some 2 }

def night : Pattern :=
  { station := .A, label := [], powerStep := 3, stages := [[⟨0, .two⟩]], windows := [], settle := 5,
    fallback := none }

def other : Pattern :=
  { station := .B, label := [], powerStep := 1, stages := [[⟨2, .one⟩]], windows := [], settle := 5,
    fallback := none }

def morning : Entry :=
  { enabled := true, station := .A, firstDay := 335, lastDay := 59, minute := 60, target := 1, precedence := 2 }

def tables : Tables :=
  { patterns := ((Vector.replicate 32 none).set 1 (some ⟨day, 4⟩)).set 2 (some ⟨night, 7⟩) |>.set 3
      (some ⟨other, 1⟩)
    schedule := ((Vector.replicate 64 none).set 5 (some morning)).set 6
      (some { morning with target := 2, precedence := 1 })
    site := site, code := none }

def row (path : Path) (sensed : Sensed) : Row :=
  { Row.reset with path := some path, sensed := sensed, commanded := some .one }

/-- A site of three contactors: 0 of station A at 1, 1 of both at 2, 2 of station B at 1; carriers off. -/
def yard : State :=
  { ready with
    tables := tables
    rows := ((Vector.replicate 48 Row.reset).set 0 (row .a .at1)).set 1 (row .ab .at2) |>.set 2 (row .b .at1)
    scan := ⟨true, 10⟩
    stations := ⟨{ StationRecord.reset with carrier := false }, { StationRecord.reset with carrier := false }⟩ }

def snapDay : Snapshot := ⟨1, 4, day⟩

def snapNight : Snapshot := ⟨2, 7, night⟩

/-- A unit that carries out a host request for a snapshot in a phase. -/
def unitIn (phase : Phase) (target : Snapshot) : TransitionRecord :=
  { TransitionRecord.idle with
    phase := phase, target := some target, priority := some .commanded, source := some .host,
    timer := some 5000 }

/-- The yard with station A's unit as given. -/
def yardWith (u : TransitionRecord) : State := { yard with units := { yard.units with a := u } }

/-- Station A stands in service in `day`, supervised. -/
def inService : State :=
  { yard with
    stations := { yard.stations with
      a := { StationRecord.reset with
        arrayState := .inPattern, powerStep := 2, inService := some ⟨snapDay, false, .no⟩,
        claims := { StationRecord.reset.claims with startUp := false } } }
    monitor := { yard.monitor with supervised := ⟨true, false⟩ } }

/-- A pulse of contactor `c` toward a position. -/
def pulse (c : Fin 48) (p : Position) (owner : PulseOwner) (second : Bool) : Pulse :=
  ⟨⟨c, p, owner, .commanded, 1, second⟩, 0, some 100, 800⟩

/-- Station A drives from position 1 of contactor 0 to `night`, its pulse in progress. -/
def driving (second : Bool) : State :=
  { yard with
    rows := yard.rows.set 0 { row .a .at1 with claim := .tu .A }
    units := { yard.units with
      a := { unitIn .driving snapNight with
        timer := none, moving := [0], muted := ⟨true, false⟩, stage := some 1, outstanding := [0],
        submitted := true, drove := true } }
    arbiter := { queue := [], pulses := [pulse 0 .two (.tu .A) second], nextArrival := 2 } }

/-- The state a command leaves. -/
def after (c : Instr) (s : State) : State :=
  match exec c s with
  | .next t => t
  | .fault _ | .refused _ => s

/-! ### Deciding what hypotheses say -/

theorem forallStation {p : Station → Prop} (a : p .A) (b : p .B) : ∀ st, p st := fun st =>
  match st with
  | .A => a
  | .B => b

theorem takes_of {s : State} {r : Req} {f : List Byte}
    (h : (s.started && decide (s.link.rx ≠ .answering) && r.lengthFits f &&
      (!r.needsAuthority || s.link.authority)) = true) : s.takes r f := by
  simp only [Bool.and_eq_true, Bool.or_eq_true, Bool.not_eq_true', decide_eq_true_eq] at h
  exact ⟨h.1.1.1, h.1.1.2, h.1.2, fun n => h.2.elim (fun x => by simp [x] at n) id⟩

theorem settled_of {s : State}
    (h : (decide (s.monitor.supervised.a = s.supervisionApplies .A) &&
      decide (s.monitor.supervised.b = s.supervisionApplies .B) &&
      (decide (s.tables.site.concurrency ≤ s.arbiter.pulses.length) ||
        s.arbiter.queue.all fun q => !s.entrySafe q)) = true) : s.settled := by
  simp only [Bool.and_eq_true, Bool.or_eq_true, decide_eq_true_eq, List.all_eq_true,
    Bool.not_eq_true'] at h
  exact ⟨forallStation h.1.1 h.1.2, h.2⟩

theorem nothingWaits_of {s : State}
    (h : (!s.units.a.waiting && !s.units.b.waiting && s.stations.a.request.isNone &&
      s.stations.b.request.isNone) = true) : s.nothingWaits := by
  simp only [Bool.and_eq_true, Bool.not_eq_true', Option.isNone_iff_eq_none] at h
  exact forallStation ⟨h.1.1.1, h.1.2⟩ ⟨h.1.1.2, h.2⟩

theorem yard_settled : yard.settled := settled_of (by decide +kernel)

theorem ready_settled : ready.settled := settled_of (by decide +kernel)

/-! ### Hypotheses met: steps, resets and the Host Link -/

theorem test_hyp_StepKeeps :
    ∃ s : State, s.pinsFollow ∧ s.stationsLawful ∧ s.stagingLawful ∧ s.attentionLawful ∧
      s.supervisionFollows ∧ s.grantsDone ∧ s.jobsLawful ∧ ∃ t, step s = .next t :=
  ⟨{ ready with pending := [.trefPulse 5] }, by unfold State.pinsFollow; decide +kernel,
    forallStation (by decide) (by decide), ⟨by decide, by decide⟩,
    by unfold State.attentionLawful; decide +kernel, ready_settled.1, ready_settled.2, fun _ => rfl, _, rfl⟩

/-- The rows, the patterns and the contactors they list agree with the site record of a part that has started up and
runs no commit. -/
theorem patternsCarried_of {s : State} (rows : ∀ c : Fin 48, (s.row c).path = s.tables.site.config[c])
    (patterns : ∀ slot, ((s.pattern slot).all fun v => v.pattern.stages.all fun g => g.all fun y =>
      (s.tables.site.config[y.contactor]).any fun path => path.has v.pattern.station) = true)
    (commit : s.commit = none) (started : s.started = true) : s.patternsCarried := by
  refine ⟨rows, fun slot v hv g hg y hy => ?_, fun run h => ?_, fun h => ?_⟩
  · have := patterns slot
    rw [hv] at this
    exact Option.any_eq_true _ _ |>.mp (List.all_eq_true.mp (List.all_eq_true.mp this g hg) y hy)
  · rw [commit] at h; cases h
  · rw [started] at h; cases h

/-- A unit that drives with nothing deferred, or one that is idle, at a station whose prior state is as given. -/
theorem unitLawful_of {s : State} {st : Station} (phase : (s.unit st).phase = .driving ∨ (s.unit st).phase = .idle)
    (moving : (s.station st).arrayState = .moving →
      (s.unit st).phase.drives = true ∧ (s.unit st).submitted = true ∧ (s.station st).prior ≠ none)
    (prior : ((s.station st).prior.all fun p => decide (p.1 ≠ .moving)) = true)
    (mutes : (s.unit st).phase.drives = true → (s.unit st).muted.get st = true ∧
      ∀ w, (s.unit st).muted.get w = true → (s.station w).claims.transition.get st = true)
    (waiting : (s.unit st).waiting = false)
    (owned : ∀ q ∈ s.entries, q.owner = .tu st → q.contactor ∈ (s.unit st).outstanding)
    (outstanding : (s.unit st).outstanding ≠ [] → (s.unit st).phase = .driving ∧ (s.unit st).deferred = none) :
    s.unitLawful st := by
  refine ⟨moving, fun p hp => ?_, fun h => mutes ?_, fun h => ?_, fun h => ?_, owned, fun h => ?_⟩
  · rw [hp] at prior; exact of_decide_eq_true prior
  · rcases h with h | h
    · rcases phase with x | x <;> rw [x] at h <;> cases h
    · exact h
  · rcases phase with x | x <;> rw [x] at h <;> cases h
  · rw [waiting] at h; cases h
  · have := outstanding h
    exact ⟨by rw [this.1]; rfl, fun _ => this⟩

/-- The end of a coil drive is due in a MOVING station's transition. -/
def moving : State :=
  { (driving false).updStation .A (fun r => { r with
      arrayState := .moving, prior := some (.unset, none), claims := { r.claims with transition := ⟨true, false⟩ } })
    with pending := [.coilDriveEnd 0 0] }

/-- A drive in progress meets every law of transitions and pulses; so does a station in service, its permit
asserted. -/
theorem test_hyp_StepKeeps_transitions :
    (moving.stationsLawful ∧ moving.transitionsLawful ∧ (moving.station .A).arrayState = .moving ∧
      moving.arbiter.pulses ≠ [] ∧ ∃ t, step moving = .next t) ∧
    (inService.stationsLawful ∧ inService.transitionsLawful ∧ (inService.station .A).permit = true) := by
  refine ⟨⟨forallStation (by decide) (by decide), ⟨patternsCarried_of (by decide +kernel) (by decide +kernel) rfl rfl,
      ?_, forallStation ?_ ?_⟩, rfl, by decide, _, rfl⟩,
    forallStation (by decide) (by decide), ⟨patternsCarried_of (by decide +kernel) (by decide +kernel) rfl rfl,
      ?_, forallStation ?_ ?_⟩, by decide⟩
  · unfold State.pulsesClaimed; decide +kernel
  · exact unitLawful_of (by decide) (by decide) (by decide)
      (fun _ => ⟨by decide, forallStation (by decide) (by decide)⟩) (by decide) (by decide) (by decide)
  · exact unitLawful_of (by decide) (by decide) (by decide) (fun h => nomatch h) (by decide) (by decide) (by decide)
  · unfold State.pulsesClaimed; decide +kernel
  · exact unitLawful_of (by decide) (by decide) (by decide) (fun h => nomatch h) (by decide) (by decide) (by decide)
  · exact unitLawful_of (by decide) (by decide) (by decide) (fun h => nomatch h) (by decide) (by decide) (by decide)

theorem test_hyp_StepIdlesOnEmptyQueue : State.reset.pending = [] := rfl

theorem test_hyp_StartupEndLoadsTables :
    State.reset.started = false ∧ State.reset.link.grantAtStart = true ∧
    { State.reset with link := { State.reset.link with grantAtStart := false } }.started = false :=
  ⟨rfl, rfl, rfl⟩

/-- The link of a ready part with its receiver as given. -/
def listening (rx : LinkRx) : State := { ready with link := { ready.link with rx := rx } }

theorem test_hyp_LinkRefusesInOrder :
    (listening .answering).link.rx = .answering ∧
    (State.reset.link.rx ≠ .answering ∧ State.reset.started = false) ∧
    (ready.link.rx ≠ .answering ∧ ready.started = true ∧ Req.lengthFits .readStation [] = false) ∧
    (let s := { ready with link := { ready.link with authority := false } }
     s.link.rx ≠ .answering ∧ s.started = true ∧ Req.lengthFits .commit [] = true ∧
      Req.needsAuthority .commit = true ∧ s.link.authority = false) := by decide

theorem test_hyp_UnknownRequestAnswered :
    State.reset.link.rx ≠ .answering ∧ ready.started = true ∧ State.reset.started = false ∧
    (0x19 : Byte).toNat ∉ requestCodes ∧ (0x3B : Byte).toNat ∉ requestCodes := by decide

theorem test_hyp_HostReceiverFollowsItsTable :
    (listening .seeking).link.rx = .seeking ∧
    ((listening (.inFrame [])).link.rx = .inFrame [] ∧
      (listening (.inFrame [])).now + 50 ≤ (listening (.inFrame [])).link.rxAt + 50 ∧
      1 ≤ (1 : Byte).toNat ∧ (250 : Byte).toNat ≤ 250 ∧ 250 < (251 : Byte).toNat ∧
      (0 : Byte).toNat = 0) ∧
    (let s := { listening (.inFrame [1]) with now := 60 }
     s.link.rx = .inFrame [1] ∧ s.link.rxAt + 50 < s.now + 0) ∧
    ((listening (.inFrame [2, 7])).link.rx = .inFrame (2 :: [7]) ∧ ([7] : List Byte).length < (2 : Byte).toNat) ∧
    (listening .answering).link.rx = .answering ∧
    { ready.link with lockUntil := some 9 }.lockUntil = some 9 := by decide

theorem test_hyp_CompleteFrameIsTheRequest :
    (2 : Byte).toNat = [(1 : Byte)].length + 1 ∧ (2 : Byte).toNat ≤ 250 ∧
    (listening (.inFrame (2 :: Req.byte .readStation :: [1]))).link.rx =
      .inFrame (2 :: Req.byte .readStation :: [1]) ∧
    byteSum (2 :: Req.byte .readStation :: [(1 : Byte)] ++ [0xEB]) % 256 = 0 ∧
    byteSum (2 :: Req.byte .readStation :: [(1 : Byte)] ++ [0xEC]) % 256 ≠ 0 ∧
    ((listening (.inFrame [2, 0x50, 1])).link.rx = .inFrame [2, 0x50, 1] ∧ (0x50 : Byte).toNat ∉ requestCodes ∧
      byteSum (2 :: 0x50 :: [(1 : Byte)] ++ [0xAD]) % 256 = 0) := by decide

/-! ### Hypotheses met: reads and the staging queue -/

theorem test_hyp_ReadsAnswer :
    ready.takes .readStation [2] ∧ ready.takes .readTransition [1] ∧ ready.takes .readReadings [3] ∧
    ready.takes .readClock [] ∧ ready.takes .readHolds [] ∧ ready.takes .readStore [] ∧
    stationOf (2 : Byte).toNat = some .B ∧ stationOf (1 : Byte).toNat = some .A ∧
    stationOf (3 : Byte).toNat = none ∧ stationOf (0 : Byte).toNat = none :=
  ⟨takes_of (by decide), takes_of (by decide), takes_of (by decide), takes_of (by decide),
    takes_of (by decide), takes_of (by decide), by decide, by decide, by decide, by decide⟩

theorem test_hyp_ReadContactorAnswersRows :
    ready.takes .readContactor [33, 47] ∧ ready.takes .readContactor [32, 47] ∧
    (47 < (33 : Byte).toNat + 15 ∧ (32 : Byte).toNat + 15 ≤ (47 : Byte).toNat) :=
  ⟨takes_of (by decide), takes_of (by decide), by decide⟩

theorem test_hyp_LookupAnswersRecordAndSetsCursor :
    ready.takes .lookup [2, 63, 2] ∧ recordIdOf 2 63 = .ok (.schedule 63) ∧ viewOf 2 = some .committed ∧
    viewOf 3 = none ∧ recordIdOf 2 64 = .error ⟨.fieldError, [24]⟩ :=
  ⟨takes_of (by decide), rfl, by decide, by decide, rfl⟩

/-- A ready part whose lookup cursor stands at a record. -/
def looking (r : RecordId) : State := { ready with link := { ready.link with cursor := some ⟨r, .committed⟩ } }

theorem test_hyp_LookupNextWalksTheKind :
    ready.takes .lookupNext [] ∧ ready.link.cursor = none ∧
    ((looking (.pattern 30)).takes .lookupNext [] ∧ (31 : Fin 32).val = (30 : Fin 32).val + 1) ∧
    ((looking (.schedule 62)).takes .lookupNext [] ∧ (63 : Fin 64).val = (62 : Fin 64).val + 1) ∧
    (looking .site).link.cursor = some ⟨.site, .committed⟩ :=
  ⟨takes_of (by decide), by decide, ⟨takes_of (by decide), by decide⟩, ⟨takes_of (by decide), by decide⟩,
    by decide⟩

/-- The yard while it commits the retirement of slot 2. -/
def committing : State :=
  { yard with staging := [.pattern 2 none], commit := some { yard with staging := [.pattern 2 none] }.commitRun }

theorem test_hyp_EditsAnsweredCommitting :
    committing.takes .discardAll [] ∧ committing.commit.isSome = true ∧
    committing.takes .retire [1, 2] ∧ committing.takes .discard [1, 2] :=
  ⟨takes_of (by decide), by decide, takes_of (by decide), takes_of (by decide)⟩

/-- The fields of a STAGE that gives schedule entry 9 a content. -/
def stageEntry (precedence : Byte) : List Byte := [2, 9, 1, 2, 1, 1, 79, 0, 59, 0, 60, 2, precedence]

/-- A yard whose staging queue holds the given number of retirements. -/
def staged (n : Nat) : State :=
  { yard with staging := ((List.finRange 32).take n).map fun i => .pattern i none }

theorem test_hyp_StagePlacesCheckedContent :
    (∃ f, yard.takes .stage (stageEntry 3) ∧ yard.commit = none ∧ readStage (stageEntry 3) = some f ∧
      recordIdOf f.kind f.index = .ok (.schedule 9) ∧ f.action ≠ 2 ∧
      (∃ e, yard.contentOf (.schedule 9) f.record = some (.ok e)) ∧
      (staged 16).staged (.schedule 9) = none ∧ 16 ≤ (staged 16).staging.length ∧
      (staged 15).staging.length < 16) ∧
    (∃ f reply, readStage (stageEntry 4) = some f ∧
      yard.contentOf (.schedule 9) f.record = some (.error reply)) ∧
    (∃ f, readStage (stageEntry 3) = some f ∧ yard.contentOf .site f.record = none) := by
  refine ⟨⟨_, takes_of (by decide +kernel), rfl, rfl, rfl, by decide +kernel, ⟨_, rfl⟩, by decide +kernel,
      by decide +kernel, by decide +kernel⟩,
    ⟨_, _, rfl, rfl⟩, ⟨_, rfl, rfl⟩⟩

theorem test_hyp_AmendPlacesMergedContent :
    (∃ f e, yard.takes .amend [1, 2, 4, 8] ∧ yard.commit = none ∧ readAmend [1, 2, 4, 8] = some f ∧
      recordIdOf f.kind f.index = .ok (.pattern 2) ∧ f.id ∈ amendIds .pattern ∧
      yard.amendEntry (.pattern 2) f = .ok e ∧ yard.staged (.pattern 2) = none) ∧
    (∃ f reply, readAmend [1, 2, 4, 9] = some f ∧ f.id ∈ amendIds .pattern ∧
      yard.amendEntry (.pattern 2) f = .error reply) ∧
    (∃ f, readAmend [1, 2, 9] = some f ∧ f.id ∉ amendIds .pattern) ∧
    (∃ f e, readAmend [1, 32, 4, 8] = some f ∧ recordIdOf f.kind f.index = .error e) ∧
    (staged 16).staged (.pattern 1) = some (.pattern 1 none) ∧ yard.pattern 4 = none ∧
    yard.staged (.pattern 4) = none ∧ yard.entry 7 = none :=
  ⟨⟨_, _, takes_of (by decide +kernel), rfl, rfl, rfl, by decide, rfl, rfl⟩, ⟨_, _, rfl, by decide, rfl⟩,
    ⟨_, rfl, by decide⟩, ⟨_, _, rfl, rfl⟩, by decide +kernel, rfl, rfl, rfl⟩

theorem test_hyp_RetireFollowsItsTable :
    yard.takes .retire [1, 31] ∧ yard.takes .stage [1, 31, 2] ∧ yard.commit = none ∧
    recordIdOf 1 31 = .ok (.pattern 31) ∧ (∃ e, recordIdOf 2 64 = .error e) ∧ recordIdOf 3 0 = .ok .site ∧
    ((staged 16).staged (.pattern 15) = some (.pattern 15 none) ∧
      StagedEntry.isRetire (.pattern 15 none) = true) ∧
    ({ yard with staging := [.schedule 5 (some morning)] }.staged (.schedule 5) =
      some (.schedule 5 (some morning)) ∧ StagedEntry.isRetire (.schedule 5 (some morning)) = false) ∧
    (yard.staged (.pattern 31) = none ∧ (yard.pattern 31).isNone = true) ∧
    (yard.staged (.pattern 1) = none ∧ (yard.pattern 1).isNone = false ∧ yard.staging.length < 16) ∧
    ((staged 16).staged (.schedule 5) = none ∧ ((staged 16).entry 5).isNone = false ∧
      16 ≤ (staged 16).staging.length) :=
  ⟨takes_of (by decide), takes_of (by decide), rfl, rfl, ⟨_, rfl⟩, rfl, by decide +kernel,
    by decide +kernel, by decide +kernel, by decide +kernel, by decide +kernel⟩

theorem test_hyp_DiscardRemovesEntries :
    (staged 2).takes .discard [1, 1] ∧ (staged 2).takes .discardAll [] ∧ (staged 2).commit = none ∧
    (staged 2).staged (.pattern 1) ≠ none ∧ (staged 2).staged (.pattern 2) = none :=
  ⟨takes_of (by decide), takes_of (by decide), rfl, by decide +kernel, by decide +kernel⟩

/-! ### Hypotheses met: requests answered at once -/

/-- A yard whose contactor 0 has a condition and a sensed value. -/
def faulty (condition : Condition) (sensed : Sensed) : State :=
  { yard with rows := yard.rows.set 0 { row .a sensed with condition := condition } }

theorem test_hyp_ClearContactorFaultFollowsItsTable :
    yard.takes .clearContactorFault [0] ∧ 47 < (48 : Byte).toNat ∧ (47 : Byte).toNat = (47 : Fin 48).val ∧
    (yard.row 47).path = none ∧
    ((faulty .conflict .conflict).row 0).condition = .conflict ∧
    ((faulty .conflict .conflict).row 0).sensed = .conflict ∧
    ((faulty .stuck .at1).row 0).path ≠ none ∧ ((faulty .stuck .at1).row 0).condition = .stuck ∧
    ((faulty .conflict .between).row 0).sensed ≠ .conflict :=
  ⟨takes_of (by decide), by decide, by decide, by decide +kernel, by decide +kernel, by decide +kernel,
    by decide +kernel, by decide +kernel, by decide +kernel⟩

theorem test_hyp_SetHoldSetsThePoint :
    ready.takes .setHold [3, 1, 47, 0, 1] ∧ ready.takes .setHold [0, 2, 2, 6, 0] ∧
    ready.takes .setHold [4, 1, 48, 0, 2] ∧ (3 : Byte).toNat = (3 : Fin 4).val ∧
    (47 : Byte).toNat = (47 : Fin 48).val ∧ (1 : Byte).toNat = (if true then 1 else 0) ∧
    stationOf (2 : Byte).toNat = some .B ∧ (6 : Byte).toNat ≤ 6 ∧ 1 ≤ (1 : Byte).toNat ∧
    3 < (4 : Byte).toNat ∧ 47 < (48 : Byte).toNat ∧ 1 < (2 : Byte).toNat :=
  ⟨takes_of (by decide), takes_of (by decide), takes_of (by decide), by decide, by decide, by decide,
    by decide, by decide, by decide, by decide, by decide, by decide⟩

theorem test_hyp_ClearHoldEmptiesPoints :
    ready.takes .clearHold [3] ∧ ready.takes .clearHold [0xFF] ∧ ready.takes .clearHold [4] ∧
    (3 : Byte).toNat = (3 : Fin 4).val ∧ (0xFF : Byte).toNat = 0xFF ∧ 3 < (4 : Byte).toNat ∧
    (4 : Byte).toNat ≠ 0xFF :=
  ⟨takes_of (by decide), takes_of (by decide), takes_of (by decide), by decide⟩

/-- A ready part with a site code. -/
def coded : State := { ready with tables := { ready.tables with code := some (List.replicate 8 7) } }

theorem test_hyp_PresentCodeAndRevokeSetAuthority :
    coded.takes .presentCode (List.replicate 8 7) ∧ coded.takes .presentCode (List.replicate 8 8) ∧
    ready.takes .revoke [] ∧ ready.tables.code = none ∧ ready.link.lockUntil = none ∧
    coded.tables.code = some (List.replicate 8 7) ∧
    (let s := { coded with link := { coded.link with lockUntil := some 9 } }
     s.takes .presentCode (List.replicate 8 7) ∧ s.link.lockUntil = some 9) :=
  ⟨takes_of (by decide), takes_of (by decide), takes_of (by decide), by decide, by decide, by decide,
    takes_of (by decide), by decide⟩

/-- A ready part with one flag raised. -/
def flagged (d : Detail) : State := ready.raise d

theorem test_hyp_ReadAttentionClearsAReportedNotice :
    ready.takes .readAttention [] ∧ (∀ n : Fin 16, ready.attention[n].latched = false) ∧
    ((flagged (.commitDone 1 1)).takes .readAttention [] ∧
      (flagged (.commitDone 1 1)).attention[(13 : Fin 16)].latched = true ∧
      ∀ m : Fin 16, m < 13 → (flagged (.commitDone 1 1)).attention[m].latched = false) ∧
    (flagged (.maintenanceDue 0 1)).attention[(14 : Fin 16)].latched = true :=
  ⟨takes_of (by decide), by decide +kernel, ⟨takes_of (by decide), by decide +kernel, by decide +kernel⟩,
    by decide +kernel⟩

theorem test_hyp_ClearAttentionFollowsItsTable :
    ready.takes .clearAttention [15] ∧ ready.takes .clearAttention [16] ∧
    ready.attention[(15 : Fin 16)].latched = false ∧
    (flagged (.numbersExhausted .opsSave)).takes .clearAttention [0] ∧
    (flagged (.numbersExhausted .opsSave)).attention[(0 : Fin 16)].latched = true :=
  ⟨takes_of (by decide), takes_of (by decide), by decide +kernel, takes_of (by decide), by decide +kernel⟩

theorem test_hyp_MaskAttentionAndAttnFollow :
    ready.takes .maskAttention [15, 0] ∧ ready.takes .maskAttention [15, 2] ∧
    (15 : Byte).toNat = (15 : Fin 16).val ∧ (0 : Byte).toNat = (if false then 1 else 0) ∧
    ∃ t, exec (.maskAttention 0 [15, 0]) ready = .next t :=
  ⟨takes_of (by decide), takes_of (by decide), by decide, by decide, _, rfl⟩

/-! ### Hypotheses met: commits, counters and the schedule -/

/-- A yard with a site record staged. -/
def siteStaged : State := { yard with staging := [.site site .absent] }

/-- A yard whose store runs an OPS_SAVE, with the jobs that wait. -/
def saving (left : List Segment) (waiting : List WaitingJob) : State :=
  { yard with store := { yard.store with
      highest := 1, waiting := waiting
      running := some ⟨.opsSave, 1, [.ops], left, some yard.opsData, .erase⟩ } }

/-- A yard whose store has issued all its commit numbers. -/
def exhausted : State := { yard with store := { yard.store with highest := 4294967295 } }

theorem test_hyp_CommitJudgedInOrder :
    (committing.takes .commit [] ∧ committing.settled ∧ committing.commit ≠ none) ∧
    (yard.takes .commit [] ∧ yard.settled ∧ yard.commit = none ∧ yard.staging = []) ∧
    (let s := { siteStaged with units := { siteStaged.units with a := unitIn .claiming snapDay } }
     s.takes .commit [] ∧ s.settled ∧ s.staging ≠ [] ∧ s.busyForSite = true) ∧
    (let s := { yard with staging := [.pattern 1 none, .pattern 2 none] }
     s.takes .commit [] ∧ s.settled ∧ s.staging ≠ [] ∧ s.busyForSite = false ∧ s.validate ≠ none) :=
  ⟨⟨takes_of (by decide), settled_of (by decide +kernel), by decide⟩,
    ⟨takes_of (by decide), yard_settled, by decide, by decide⟩,
    ⟨takes_of (by decide), settled_of (by decide +kernel), by decide, by decide +kernel⟩,
    ⟨takes_of (by decide), settled_of (by decide +kernel), by decide, by decide +kernel, by decide +kernel⟩⟩

/-- A yard that stages the retirement of slot 3. -/
def retireOther : State := { yard with staging := [.pattern 3 none] }

theorem test_hyp_CommitAccepted :
    (retireOther.takes .commit [] ∧ retireOther.settled ∧ retireOther.jobsLawful ∧ retireOther.stagingLawful ∧
      retireOther.store.highest < 4294967295 ∧ retireOther.commit = none ∧ retireOther.staging ≠ [] ∧
      retireOther.busyForSite = false ∧ retireOther.validate = none ∧ retireOther.store.running = none) ∧
    (let s := { retireOther with store := (saving [.ops] []).store }
     s.takes .commit [] ∧ s.settled ∧ s.jobsLawful ∧ s.validate = none ∧ s.store.running ≠ none) :=
  ⟨⟨takes_of (by decide), settled_of (by decide +kernel), fun _ => rfl, ⟨by decide, by decide⟩, by decide,
      rfl, by decide, by decide +kernel, by decide +kernel, rfl⟩,
    ⟨takes_of (by decide), settled_of (by decide +kernel), by unfold State.jobsLawful; decide,
      by decide +kernel, by decide⟩⟩

theorem test_hyp_ValidationAdmitsOnlyFittingTables :
    retireOther.validate = none ∧
    (∃ e, (retireOther.afterTables retireOther.nextVersion).schedule[(5 : Fin 64)] = some e ∧ e.enabled = true) ∧
    (∃ v, (retireOther.afterTables retireOther.nextVersion).patterns[(1 : Fin 32)] = some v ∧
      v.pattern.fallback = some 2) ∧
    siteStaged.validate = none ∧ siteStaged.stagedSite ≠ none ∧
    { inService with staging := [.schedule 6 none] }.validate = none ∧
    { inService with staging := [.schedule 6 none] }.slotInUse 1 = true :=
  ⟨by decide +kernel, ⟨_, rfl, rfl⟩, ⟨_, rfl, rfl⟩, by decide +kernel, by decide +kernel, by decide +kernel,
    by decide +kernel⟩

theorem test_hyp_CounterRequestsFollowTheirTables :
    (yard.settled ∧ yard.jobsLawful ∧ yard.takes .saveCounters [] ∧ yard.takes .resetCounters [47] ∧
      yard.takes .resetCounters [48] ∧ yard.store.running = none ∧ yard.store.highest < 4294967295) ∧
    (exhausted.settled ∧ exhausted.jobsLawful ∧ exhausted.takes .saveCounters [] ∧
      4294967295 ≤ exhausted.store.highest) ∧
    ((saving [] []).settled ∧ (saving [] []).takes .saveCounters [] ∧ (saving [] []).store.running ≠ none ∧
      (∀ w ∈ (saving [] []).store.waiting, w.kind ≠ .opsSave)) ∧
    (let s := saving [] [⟨.opsSave, [.ops], 0⟩]
     s.settled ∧ s.takes .saveCounters [] ∧ ∃ w ∈ s.store.waiting, w.kind = .opsSave) :=
  ⟨⟨yard_settled, fun _ => rfl, takes_of (by decide), takes_of (by decide), takes_of (by decide), rfl,
      by decide⟩,
    ⟨settled_of (by decide +kernel), fun _ => rfl, takes_of (by decide), by decide⟩,
    ⟨settled_of (by decide +kernel), takes_of (by decide), by decide, by decide⟩,
    ⟨settled_of (by decide +kernel), takes_of (by decide), _, .head _, rfl⟩⟩

theorem test_hyp_SetClockSetsAndResolves :
    yard.takes .setClock [8, 51, 1, 109, 5, 159] ∧ yard.settled ∧
    (2099 = 256 * (8 : Byte).toNat + (51 : Byte).toNat ∧ 365 = 256 * (1 : Byte).toNat + (109 : Byte).toNat ∧
      1439 = 256 * (5 : Byte).toNat + (159 : Byte).toNat ∧ 365 ≤ yearLength 2099 ∧ yearLength 2099 < 366) ∧
    (yard.station .A).suspended = false ∧
    ((yard.updStation .A fun r => { r with suspended := true }).station .A).suspended = true :=
  ⟨takes_of (by decide), yard_settled, by decide, by decide, by decide⟩

/-- A yard whose clock is VALID, at the second before minute 60 of day 335. -/
def beforeMorning : State :=
  { yard with clock := { yard.clock with time := some ⟨⟨2024, 335⟩, 59, 59⟩ } }

theorem test_hyp_SuspendAndResumeFollowTheirTables :
    yard.takes .suspendSchedule [2] ∧ yard.takes .resumeSchedule [3] ∧ yard.settled ∧
    (yard.station .B).suspended = false ∧
    (let s := yard.updStation .A fun r => { r with suspended := true }
     s.takes .resumeSchedule [1] ∧ s.settled ∧ (s.station .A).suspended = true ∧ s.clock.time = none) ∧
    (let s := beforeMorning.updStation .A fun r => { r with suspended := true }
     s.takes .resumeSchedule [1] ∧ (s.station .A).suspended = true ∧ s.clock.time ≠ none) :=
  ⟨takes_of (by decide), takes_of (by decide), yard_settled, by decide,
    ⟨takes_of (by decide), settled_of (by decide +kernel), by decide, by decide⟩,
    ⟨takes_of (by decide), by decide, by decide⟩⟩

theorem test_hyp_MinuteScanChoosesAndMarks :
    (morning.lastDay < morning.firstDay ∧ ({ morning with firstDay := 59 } : Entry).firstDay ≤ 59) ∧
    yard.candidates .A ⟨⟨2024, 335⟩, 60, 0⟩ = [5, 6] ∧ yard.candidates .A ⟨⟨2024, 334⟩, 60, 0⟩ = [] ∧
    (yard.station .A).suspended = false ∧ yard.entry 5 = some morning ∧
    (∀ (j : Fin 64) (x : Entry), j ∈ yard.candidates .A ⟨⟨2024, 335⟩, 60, 0⟩ → yard.entry j = some x →
      x.precedence < morning.precedence ∨ (x.precedence = morning.precedence ∧ 5 ≤ j)) := by
  refine ⟨by decide, by decide +kernel, by decide +kernel, by decide, by decide +kernel, ?_⟩
  rw [show yard.candidates .A ⟨⟨2024, 335⟩, 60, 0⟩ = [5, 6] by decide +kernel]
  intro j x hj h
  rcases List.mem_cons.mp hj with rfl | hj
  · cases h; decide
  · rcases List.mem_singleton.mp hj with rfl
    cases h; decide

/-! ### Hypotheses met: transitions -/

/-- A yard with a request pending for station A. -/
def pending (r : Request) : State := yard.updStation .A fun x => { x with request := some r }

theorem test_hyp_TransitionRequestJudged :
    (yard.takes .transition [1, 31] ∧ yard.takes .transition [3, 2] ∧ yard.takes .transition [1, 32] ∧
      yard.settled ∧ yard.pattern 31 = none) ∧
    (yard.takes .transition [1, 3] ∧ yard.pattern 3 = some ⟨other, 1⟩ ∧ other.station ≠ .A) ∧
    (committing.takes .transition [1, 2] ∧ committing.settled ∧ committing.pattern 2 = some ⟨night, 7⟩ ∧
      committing.retiring 2 = true) ∧
    (let s := yardWith (unitIn .claiming snapNight)
     s.takes .transition [1, 2] ∧ s.settled ∧ (s.station .A).request = none ∧ (s.unit .A).phase ≠ .idle ∧
      (s.unit .A).target.map Snapshot.slot = some 2 ∧ (s.unit .A).target.map Snapshot.slot ≠ some 1) ∧
    (let s := { siteStaged with commit := some siteStaged.commitRun }
     s.takes .transition [1, 2] ∧ s.settled ∧ s.retiring 2 = false ∧ (s.station .A).request = none ∧
      (s.unit .A).phase = .idle ∧ s.siteCommitRunning = true) ∧
    (let s := pending ⟨1, .scheduled, .schedule 5⟩
     s.takes .transition [1, 2] ∧ s.settled ∧ (s.station .A).request ≠ none) ∧
    (let s := pending ⟨1, .protective, .fallback 2⟩
     s.takes .transition [1, 2] ∧ s.settled ∧ (s.station .A).request ≠ none) :=
  ⟨⟨takes_of (by decide), takes_of (by decide), takes_of (by decide), yard_settled, by decide +kernel⟩,
    ⟨takes_of (by decide), by decide +kernel, by decide⟩,
    ⟨takes_of (by decide), settled_of (by decide +kernel), by decide +kernel, by decide +kernel⟩,
    ⟨takes_of (by decide), settled_of (by decide +kernel), by decide⟩,
    ⟨takes_of (by decide), settled_of (by decide +kernel), by decide +kernel⟩,
    ⟨takes_of (by decide), settled_of (by decide +kernel), by decide⟩,
    ⟨takes_of (by decide), settled_of (by decide +kernel), by decide⟩⟩

/-- A yard whose contactor 0 is claimed by the other station's unit. -/
def claimedAway : State := { yard with rows := yard.rows.set 0 { row .a .at1 with claim := .tu .B } }

/-- A yard with carrier on at station A. -/
def onAir : State := yard.updStation .A fun r => { r with carrier := true }

/-- The request of slot 1 or 2 for station A of a state meets what TransitionStarts asks first. -/
def startable (s : State) (slot : Fin 32) : Prop :=
  s.takes .transition [1, BitVec.ofNat 8 slot.val] ∧ (s.pattern slot).isSome ∧ s.activeFor slot .A ∧
  s.retiring slot = false ∧ (s.station .A).request = none ∧ (s.unit .A).phase = .idle ∧
  s.siteCommitRunning = false ∧ s.settled

theorem test_hyp_TransitionStarts :
    (startable (faulty .stuck .at1) 2 ∧ (faulty .stuck .at1).claimingRefusal .A night ≠ none ∧
      (faulty .stuck .at1).nothingWaits ∧ ((faulty .stuck .at1).unit .A).muted = ⟨false, false⟩ ∧
      (faulty .stuck .at1).monitor.failures.get .A = none) ∧
    (startable claimedAway 2 ∧ claimedAway.claimingRefusal .A night = none ∧
      (0 : Fin 48) ∈ night.listed ∧ (claimedAway.row 0).claim ≠ .none) ∧
    (startable yard 1 ∧ yard.claimingRefusal .A day = none ∧ (yard.unit .B).waiting = false ∧
      day.listed = [0, 1] ∧ (yard.row 0).claim = .none ∧ (yard.row 1).claim = .none ∧
      yard.inMotion 0 = false ∧ yard.inMotion 1 = false ∧ day.lists 0 = some .one ∧
      day.lists 1 = some .two ∧ yard.standsAt 0 .one = true ∧ yard.standsAt 1 .two = true) ∧
    (startable onAir 2 ∧ onAir.claimingRefusal .A night = none ∧ night.listed = [0] ∧
      (onAir.row 0).claim = .none ∧
      night.listed.filter (fun c => (night.lists c).any fun p => !onAir.standsAt c p) = [0] ∧
      onAir.allCarriersOff (onAir.pathsOf [0]) = false) := by
  refine ⟨⟨⟨takes_of (by decide), ?_⟩, by decide +kernel, nothingWaits_of (by decide), by decide, by decide⟩,
    ⟨⟨takes_of (by decide), ?_⟩, by decide +kernel⟩, ⟨⟨takes_of (by decide), ?_⟩, by decide +kernel⟩,
    ⟨⟨takes_of (by decide), ?_⟩, by decide +kernel⟩⟩ <;>
  exact ⟨by decide +kernel, by decide +kernel, by decide +kernel, by decide, by decide, by decide,
    settled_of (by decide +kernel)⟩

/-- Station A's transition to `night` in a phase, nothing claimed but contactor 0. -/
def inPhase (phase : Phase) : State :=
  { yard with
    rows := yard.rows.set 0 { row .a .at1 with claim := .tu .A }
    units := { yard.units with
      a := { unitIn phase snapNight with moving := [0], muted := ⟨true, false⟩, stage := some 1 } } }

theorem test_hyp_AbortFollowsThePhase :
    (yard.takes .abort [1] ∧ yard.takes .abort [3] ∧ yard.settled ∧ (yard.unit .A).phase = .idle ∧
      yard.removable .A = none) ∧
    (let s := pending ⟨1, .commanded, .host⟩
     s.takes .abort [1] ∧ s.settled ∧ (s.unit .A).phase = .idle ∧ s.removable .A ≠ none) ∧
    (let s := (driving false).updUnit .A fun u => { u with closing := some .breach }
     s.takes .abort [1] ∧ s.settled ∧ (s.unit .A).phase ≠ .idle ∧ (s.unit .A).closing ≠ none ∧
      s.removable .A = none) ∧
    ((∀ phase, (inPhase phase).takes .abort [1]) ∧ (∀ phase, (inPhase phase).settled) ∧
      ∀ phase, (phase ≠ .idle) → ((inPhase phase).unit .A).closing = none ∧
        (inPhase phase |>.unit .A).request = some ⟨2, .commanded, .host⟩ ∧
        ((inPhase phase).station .A).request = (inPhase phase).removable .A ∧
        ((inPhase phase).unit .B).waiting = false ∧ ((inPhase phase).unit .A).waiting = false ∧
        ((inPhase phase).unit .A).phase = phase ∧ (inPhase phase).pulsesOf (.tu .A) = []) ∧
    ((driving false).takes .abort [1] ∧ (driving false).settled ∧
      (driving false).pulsesOf (.tu .A) ≠ []) := by
  refine ⟨⟨takes_of (by decide), takes_of (by decide), yard_settled, by decide⟩,
    ⟨takes_of (by decide), settled_of (by decide +kernel), by decide⟩,
    ⟨takes_of (by decide), settled_of (by decide +kernel), by decide⟩,
    ⟨fun phase => takes_of (by cases phase <;> decide), fun phase => settled_of ?_, fun phase _ => ?_⟩,
    ⟨takes_of (by decide), settled_of (by decide +kernel), by decide +kernel⟩⟩
  · cases phase <;> decide +kernel
  · cases phase <;> decide +kernel

theorem test_hyp_HeldTransitionGoesOn :
    (yard.takes .continueHeld [1] ∧ yard.takes .continueHeld [3] ∧ yard.settled ∧
      (yard.unit .A).phase ≠ .held) ∧
    (let s := inPhase .held
     s.takes .continueHeld [1] ∧ (s.unit .A).phase = .held ∧ (s.unit .A).closing = none ∧
      (s.unit .A).stage = some (0 + 1) ∧ (s.unit .A).target = some snapNight ∧
      night.stages[0]? = some [⟨0, .two⟩] ∧ s.stageSubset [⟨0, .two⟩] = [0] ∧
      (∀ c ∈ ([0] : List (Fin 48)), c ∈ (s.unit .A).moving) ∧ (s.unit .A).breach = none ∧
      (s.unit .A).timer = some 5000) :=
  ⟨⟨takes_of (by decide), takes_of (by decide), yard_settled, by decide⟩,
    ⟨takes_of (by decide), by decide +kernel⟩⟩

/-- A yard whose stations both hold HOST-HOLD. -/
def heldOff : State :=
  (yard.updStation .A (StationRecord.setHostHold true)).updStation .B
    (StationRecord.setHostHold true)

theorem test_hyp_CarrierHoldAndRelease :
    yard.settled ∧ yard.takes .carrierHold [1] ∧ yard.takes .carrierHold [3] ∧
    yard.takes .carrierRelease [2] ∧ (yard.station .B).claims.hostHold = false ∧
    (heldOff.settled ∧ heldOff.takes .carrierRelease [2] ∧ (heldOff.station .B).claims.hostHold = true) :=
  ⟨yard_settled, takes_of (by decide), takes_of (by decide), takes_of (by decide), by decide,
    settled_of (by decide +kernel), takes_of (by decide), by decide⟩

theorem test_hyp_ManualMoveRefusedInOrder :
    (yard.takes .manualMove [48, 1] ∧ yard.takes .manualMove [47, 3] ∧ yard.settled) ∧
    (yard.takes .manualMove [47, 1] ∧ (yard.row 47).path = none ∧ positionOf (1 : Byte).toNat = some .one) ∧
    ((faulty .conflict .conflict).takes .manualMove [0, 1] ∧ (faulty .conflict .conflict).settled ∧
      ((faulty .conflict .conflict).row 0).condition = .conflict) ∧
    (claimedAway.takes .manualMove [0, 1] ∧ claimedAway.settled ∧ (claimedAway.row 0).claim ≠ .none) ∧
    (let s := { siteStaged with commit := some siteStaged.commitRun }
     s.takes .manualMove [0, 1] ∧ s.settled ∧ (s.row 0).claim = .none ∧ s.manual = none ∧
      s.siteCommitRunning = true) ∧
    (yard.takes .manualMove [1, 1] ∧ yard.siteCommitRunning = false ∧ Path.has .ab .B = true ∧
      (yard.station .B).claims.hostHold = false) ∧
    (heldOff.takes .manualMove [1, 2] ∧ heldOff.settled ∧
      (∀ st, Path.has .ab st = true →
        (heldOff.station st).claims.hostHold = true ∧ (heldOff.station st).carrier = false) ∧
      heldOff.standsAt 1 .two = true) :=
  ⟨⟨takes_of (by decide), takes_of (by decide), yard_settled⟩,
    ⟨takes_of (by decide), by decide +kernel, by decide⟩,
    ⟨takes_of (by decide), settled_of (by decide +kernel), by decide +kernel⟩,
    ⟨takes_of (by decide), settled_of (by decide +kernel), by decide +kernel⟩,
    ⟨takes_of (by decide), settled_of (by decide +kernel), by decide +kernel⟩,
    ⟨takes_of (by decide), by decide⟩,
    ⟨takes_of (by decide), settled_of (by decide +kernel), forallStation (by decide) (by decide),
      by decide +kernel⟩⟩

/-- A state with its pulses in progress as given. -/
def withPulses (l : List Pulse) (s : State) : State := { s with arbiter := ⟨[], l, 3⟩ }

theorem test_hyp_ManualMoveAccepted :
    (heldOff.takes .manualMove [1, 1] ∧ heldOff.settled ∧ (1 : Byte).toNat = (1 : Fin 48).val ∧
      positionOf (1 : Byte).toNat = some .one ∧ (heldOff.row 1).path = some .ab ∧
      heldOff.moveRefusal 1 .one = none ∧ heldOff.inMotion 1 = false ∧
      heldOff.arbiter.pulses.length < heldOff.tables.site.concurrency) ∧
    (let s := withPulses [pulse 0 .two (.tu .A) false, pulse 2 .two (.tu .B) false] heldOff
     s.takes .manualMove [1, 1] ∧ s.settled ∧ s.moveRefusal 1 .one = none ∧ s.inMotion 1 = false ∧
      s.tables.site.concurrency ≤ s.arbiter.pulses.length) :=
  ⟨⟨takes_of (by decide), settled_of (by decide +kernel), by decide, by decide, by decide +kernel,
      by decide +kernel, by decide +kernel, by decide +kernel⟩,
    ⟨takes_of (by decide), settled_of (by decide +kernel), by decide +kernel, by decide +kernel,
      by decide +kernel⟩⟩

/-! ### Hypotheses met: scans, carriers and timers -/

/-- Contacts that read contactors 0, 1 and 2 as given, and every other place open. -/
def contactsOf (a b c : Bool × Bool) : List (Bool × Bool) := [a, b, c]

/-- The candidate of contactor 0 is as given. -/
def withCandidate (x : Sensed) (s : State) : State := s.updRow 0 fun r => { r with candidate := some x }

/-- The yard's contacts as they stand, but for contactor 0 at position 2. -/
def turned : List (Bool × Bool) := contactsOf (false, true) (false, true) (true, false)

theorem test_hyp_ScansTakeReadings :
    ready.scan.resetDone = false ∧
    (yard.scan.resetDone = true ∧
      ∀ c, ¬ yard.accepts turned c) ∧
    [((true, false) : Bool × Bool), (false, true), (true, true), (false, false)][3]? = some (false, false) :=
  ⟨rfl, ⟨rfl, by unfold State.accepts; decide +kernel⟩, rfl⟩

/-- A state with only contactor 0's change of the given contacts accepted meets what the scan statements ask
first. -/
def oneChange (s : State) (contacts : List (Bool × Bool)) : Prop :=
  s.scan.resetDone = true ∧ s.accepts contacts 0 ∧ ∀ d, d ≠ 0 → ¬ s.accepts contacts d

theorem test_hyp_AcceptedChangeFollowsItsKind :
    (let s := withCandidate .at2 (yard.updRow 0 fun r => { r with path := none })
     oneChange s turned ∧ (s.row 0).path = none) ∧
    (let s := withCandidate .at2 (faulty .conflict .conflict)
     oneChange s turned ∧ (s.row 0).condition = .conflict ∧ placeReading turned 0 ≠ .conflict) ∧
    (let s := withCandidate .at2 inService
     oneChange s turned ∧ (s.row 0).path = some .a ∧ (s.row 0).condition ≠ .conflict ∧
      s.inMotion 0 = false ∧ (s.inServiceLists .A 0).isSome = true) ∧
    (let s := withCandidate .conflict inService
     let l := contactsOf (true, true) (false, true) (true, false)
     oneChange s l ∧ placeReading l 0 = .conflict ∧ (s.row 0).claim = .none) := by
  unfold oneChange State.accepts
  decide +kernel

theorem test_hyp_ConfirmedMoveUpdatesTheRow :
    oneChange (withCandidate .at2 (driving false)) turned ∧
    (withCandidate .at2 (driving false)).pulseOf 0 = some (pulse 0 .two (.tu .A) false) ∧
    placeReading turned 0 = (pulse 0 .two (.tu .A) false).entry.target.sensed ∧
    ((withCandidate .at2 (driving false)).row 0).path = some .a ∧
    ((withCandidate .at2 (driving false)).row 0).condition ≠ .conflict := by
  unfold oneChange State.accepts
  decide +kernel

/-- Station A's unit waits in MUTING for carrier off at station A, and station B's carrier as given. -/
def muting (both : Bool) : State :=
  { onAir with
    rows := (inPhase .muting).rows
    stations := onAir.stations.upd .B fun r => { r with carrier := true }
    units := (inPhase .muting).units.upd .A fun u => { u with muted := ⟨true, both⟩ } }

/-- Station A's unit is in a phase of a breach wait at station A. -/
def breached (phase : Phase) : State :=
  { inPhase phase with
    stations := onAir.stations
    units := (inPhase phase).units.upd .A fun u => { u with breach := some 700 } }

theorem test_hyp_CarrierChangesAccepted :
    (yard.station .A).carrier = false ∧ yard.settled ∧ (driving false).settled ∧
    (driving false).pulseInPath .A = true ∧
    ((onAir.station .A).carrier = true ∧ ∀ u, onAir.awaitsCarrier .A u = false) ∧
    (((muting false).station .A).carrier = true ∧ (muting false).awaitsCarrier .A .A = true ∧
      (muting false).awaitsCarrier .A .B = false) ∧
    (((muting true).unit .A).muted.get .B = true ∧ ((muting true).station .B).carrier = true ∧
      (muting true).awaitsCarrier .A .A = true) ∧
    ((∀ w, ((muting false).unit .A).muted.get w = true → w ≠ .A →
        ((muting false).station w).carrier = false) ∧
      ((muting false).unit .A).phase = .muting ∧ ((muting false).unit .A).breach = none ∧
      ((muting false).unit .A).target = some snapNight ∧ night.stages = [⟨0, .two⟩] :: [] ∧
      (muting false).stageSubset [⟨0, .two⟩] = [0] ∧ (0 : Fin 48) ∈ ((muting false).unit .A).moving ∧
      (muting false).holdFor .A 1 [0] = none ∧ ((muting false).unit .A).priority ≠ some .protective ∧
      { muting false with holds := (muting false).holds.set 3 (some ⟨.contactor 0, true⟩) }.holdFor .A 1 [0] =
        some 3) ∧
    (((breached .held).station .A).carrier = true ∧ (breached .held).awaitsCarrier .A .A = true ∧
      ((breached .held).unit .A).phase = .held) ∧
    ((breached .driving).awaitsCarrier .A .A = true ∧ ((breached .driving).unit .A).deferred = none) :=
  ⟨by decide, yard_settled, settled_of (by decide +kernel), by decide +kernel,
    ⟨by decide, forallStation (by decide) (by decide)⟩, by decide, by decide,
    ⟨forallStation (by decide) (by decide), by decide +kernel⟩, by decide, by decide⟩

theorem test_hyp_PulseTimersRunOut :
    ((driving false).pulseOf 0 = some (pulse 0 .two (.tu .A) false) ∧
      (pulse 0 .two (.tu .A) false).driveEnd = some 100) ∧
    ((yard.pulseOf 0).bind Pulse.driveEnd = none ∧ (∀ p, yard.pulseOf 0 = some p → p.entry.second = true) ∧
      ∀ p, yard.pulseOf 0 = some p → p.entry.second = false) ∧
    ((pulse 0 .two (.tu .A) false).entry.second = false ∧ (driving false).queuedOf 0 = none ∧
      ((driving false).unit .A).closing = none) ∧
    ((driving true).pulseOf 0 = some (pulse 0 .two (.tu .A) true) ∧
      (pulse 0 .two (.tu .A) true).entry.second = true ∧ ((driving true).row 0).path = some .a ∧
      (driving true).nothingWaits ∧ ((driving true).unit .A).phase.drives = true ∧
      ((driving true).unit .A).closing = none ∧
      ((driving true).unit .A).request = some ⟨2, .commanded, .host⟩ ∧
      (driving true).pulsesOf (.tu .A) = [0]) ∧
    (let s := withPulses [pulse 0 .two (.tu .A) true, pulse 1 .one (.tu .A) false] (driving true)
     s.pulseOf 0 = some (pulse 0 .two (.tu .A) true) ∧ (1 : Fin 48) ∈ s.pulsesOf (.tu .A)) ∧
    (let s := withPulses [pulse 0 .two .manual true] (driving true)
     s.pulseOf 0 = some (pulse 0 .two .manual true)) := by
  refine ⟨by decide +kernel, ?_, by decide +kernel,
    ⟨by decide +kernel, rfl, by decide +kernel, nothingWaits_of (by decide), by decide +kernel⟩,
    by decide +kernel, by decide +kernel⟩
  have h : yard.pulseOf 0 = none := by decide +kernel
  simp [h]

theorem test_hyp_PhaseTimersRunOut :
    (yard.timerIn .A .muting = none ∧ yard.timerIn .A .held = none ∧ yard.timerIn .A .settling = none ∧
      yard.timerIn .A .verifying = none ∧ (yard.unit .A).breach = none) ∧
    (∀ phase, (inPhase phase).nothingWaits ∧ ((inPhase phase).unit .A).closing = none ∧
      ((inPhase phase).unit .A).timer = some 5000 ∧ ((inPhase phase).unit .A).phase = phase ∧
      ((inPhase phase).unit .A).request = some ⟨2, .commanded, .host⟩ ∧
      (inPhase phase).monitor.failures.get .A = none ∧
      ((inPhase phase).station .A).arrayState ≠ .moving) ∧
    snapNight.pattern.windows = [] ∧
    (let s := yardWith (unitIn .settling snapDay)
     s.settled ∧ (s.unit .A).target = some snapDay ∧ snapDay.pattern.windows ≠ []) ∧
    ((breached .held).nothingWaits ∧ ((breached .held).unit .A).breach = some 700 ∧
      ((breached .held).unit .A).phase.drives = true ∧ (breached .held).pulsesOf (.tu .A) = []) ∧
    (let s := (driving false).updUnit .A fun u => { u with breach := some 700 }
     s.nothingWaits ∧ (s.unit .A).breach = some 700 ∧ s.pulsesOf (.tu .A) ≠ []) := by
  refine ⟨by decide, fun phase => ⟨nothingWaits_of (by cases phase <;> decide), ?_⟩, rfl,
    ⟨settled_of (by decide +kernel), rfl, by decide⟩,
    ⟨nothingWaits_of (by decide), by decide, by decide, by decide +kernel⟩,
    ⟨nothingWaits_of (by decide), by decide, by decide +kernel⟩⟩
  cases phase <;> decide +kernel

/-! ### Hypotheses met: the monitor line, the clock and the store -/

/-- A frame of station A, tower 1, with ratio 150 or 9999 and phase 0, valid. -/
def frame (inTolerance : Bool) : MonitorFrame :=
  if inTolerance then ⟨1, 1, 0, 150, 0, 0, 1, 103⟩ else ⟨1, 1, 39, 15, 0, 0, 1, 199⟩

def reading (ratio : Nat) : Reading := ⟨.A, 0, ratio, 0, true⟩

/-- The monitor line of a ready part within a frame. -/
def receiving (bytes : List Byte) : State :=
  { ready with monitor := { ready.monitor with rx := some bytes } }

theorem test_hyp_MonitorReceiverTakesFrames :
    ready.settled ∧ frameReading ⟨1, 1, 0, 150, 0, 0, 1, 104⟩ = none ∧
    frameReading ⟨1, 1, 0x27, 0x10, 0, 0, 1, 198⟩ = none ∧
    (frameReading (frame false) = some (reading 9999) ∧ (ready.unit .A).phase ≠ .verifying ∧
      ready.monitor.supervised.get .A = false) ∧
    ready.monitor.rx = none ∧ (receiving (List.replicate 6 0)).monitor.rx = some (List.replicate 6 0) ∧
    (receiving (List.replicate 6 0)).now + 20 ≤ (receiving (List.replicate 6 0)).monitor.rxAt + 20 ∧
    (receiving [1, 1, 0, 150, 0, 0, 1]).monitor.rx = some [1, 1, 0, 150, 0, 0, 1] :=
  ⟨ready_settled, by decide +kernel, by decide +kernel, ⟨by decide +kernel, by decide, by decide⟩, rfl, rfl,
    by decide, rfl⟩

/-- `inService` with the run count of tower 1 as given. -/
def afterRun (n : Nat) : State := inService.updCell .A 0 fun c => { c with run := n, silence := .watched 60 }

/-- `inService` without its fallback, or with its unit waiting in CLAIMING. -/
def noFallback (n : Nat) : State :=
  (afterRun n).updStation .A fun r =>
    { r with inService := some ⟨{ snapDay with pattern := { day with fallback := none } }, false, .no⟩ }

def claiming (n : Nat) : State :=
  { afterRun n with units := { yard.units with a := { unitIn .claiming snapNight with waiting := true } } }

/-- Station A verifies `day`, or a pattern of two window towers. -/
def verifying (windows : List Window) (byProtection : Bool) : State :=
  { inService with
    stations := inService.stations.upd .A fun r => { r with inService := some ⟨snapDay, byProtection, .no⟩ }
    units := { yard.units with
      a := { unitIn .verifying { snapDay with pattern := { day with windows := windows } } with
        marks := windows.map fun w => (w.tower, Mark.undecided) } }
    monitor := { inService.monitor with supervised := ⟨false, false⟩ } }

theorem test_hyp_ReadingsAreJudged :
    ((afterRun 0).cell .A 0).silence = .watched 60 ∧ (ready.cell .B 7).silence = .notWatched ∧
    (frameReading (frame true) = some (reading 150) ∧ frameReading (frame false) = some (reading 9999)) ∧
    ((afterRun 1).settled ∧ ((afterRun 1).unit .A).phase ≠ .verifying ∧
      (afterRun 1).monitor.supervised.get .A = true ∧
      ((afterRun 1).station .A).inService = some ⟨snapDay, false, .no⟩ ∧
      day.windowOn 0 = some ⟨0, 100, 200, 0, 10⟩ ∧
      (⟨0, 100, 200, 0, 10⟩ : Window).inTolerance 150 0 = true ∧
      (⟨0, 100, 200, 0, 10⟩ : Window).inTolerance 9999 0 = false ∧
      ((afterRun 1).cell .A 0).run + 1 < (afterRun 1).tables.site.toleranceRun ∧
      (afterRun 2).tables.site.toleranceRun ≤ ((afterRun 2).cell .A 0).run + 1) ∧
    ((noFallback 2).settled ∧ (noFallback 2).usableFallback .A = none) ∧
    ((claiming 2).settled ∧ (claiming 2).usableFallback .A = some (⟨snapDay, false, .no⟩, 2) ∧
      ((claiming 2).unit .A).phase ≠ .idle ∧ ((claiming 2).station .A).request = none) ∧
    (let s := verifying [⟨0, 100, 200, 0, 10⟩] true
     (s.unit .A).phase = .verifying ∧ (s.unit .A).request = some ⟨1, .commanded, .host⟩ ∧
      ((0, Mark.undecided) : Fin 8 × Mark) ∈ (s.unit .A).marks ∧ s.nothingWaits ∧
      s.usableFallback .A = none) ∧
    (let s := verifying [⟨0, 100, 200, 0, 10⟩, ⟨7, 100, 200, 0, 10⟩] false
     ((7, Mark.undecided) : Fin 8 × Mark) ∈ (s.unit .A).marks) :=
  ⟨by decide +kernel, by decide +kernel, by decide +kernel,
    ⟨settled_of (by decide +kernel), by decide, by decide, by decide, by decide, by decide, by decide,
      by decide +kernel, by decide +kernel⟩,
    ⟨settled_of (by decide +kernel), by decide +kernel⟩,
    ⟨settled_of (by decide +kernel), by decide +kernel, by decide, by decide⟩,
    ⟨by decide, by decide, by decide, nothingWaits_of (by decide), by decide +kernel⟩, by decide⟩

/-- A ready part whose clock shows a time and runs on a source. -/
def clocked (time : Option SiteTime) (source : ClockSource) (run : Nat) (last : Option Nat) : State :=
  { yard with clock := { yard.clock with time := time, source := source, run := run, lastPulse := last } }

theorem test_hyp_ClockKeepsTime :
    ((⟨⟨2024, 366⟩, 1439, 59⟩ : SiteTime).date.year < 2099 ∧ yearLength 2024 ≤ 366 ∧
      (⟨⟨2023, 365⟩, 1439, 59⟩ : SiteTime).date.day < yearLength 2024 ∧
      (⟨⟨2099, 365⟩, 1439, 59⟩ : SiteTime).next = none) ∧
    ((clocked none .internal 0 none).settled ∧ (clocked none .internal 0 none).quietBoundary ∧
      (clocked none .internal 0 none).clock.source = .internal) ∧
    ((clocked (some ⟨⟨2024, 335⟩, 59, 58⟩) .tref 0 (some 0)).settled ∧
      (clocked (some ⟨⟨2024, 335⟩, 59, 58⟩) .tref 0 (some 0)).quietBoundary ∧
      (clocked (some ⟨⟨2024, 335⟩, 59, 58⟩) .tref 0 (some 0)).clock.source = .tref) ∧
    ((clocked (some ⟨⟨2099, 365⟩, 1439, 59⟩) .internal 0 none).settled) ∧
    (beforeMorning.settled ∧ beforeMorning.started = true ∧
      (⟨⟨2024, 335⟩, 59, 59⟩ : SiteTime).next = some ⟨⟨2024, 335⟩, 60, 0⟩ ∧
      beforeMorning.firstEntry (beforeMorning.candidates .A ⟨⟨2024, 335⟩, 60, 0⟩) = some 5 ∧
      beforeMorning.candidates .B ⟨⟨2024, 335⟩, 60, 0⟩ = []) ∧
    ((clocked none .internal 2 (some 0)).clock.judgePulse 1100 = 3 ∧
      (clocked none .internal 2 (some 0)).clock.judgePulse 1101 = 1 ∧
      (clocked none .internal 0 none).clock.judgePulse 5 = 1 ∧
      (clocked none .internal 0 none).clock.absentDue = some 4000) ∧
    { ready.clock with absentDue := none }.absentDue = none := by
  refine ⟨by decide, ⟨settled_of (by decide +kernel), .inl rfl, rfl⟩,
    ⟨settled_of (by decide +kernel), .inr ⟨_, _, rfl, rfl, .inl (by decide)⟩, rfl⟩,
    settled_of (by decide +kernel),
    ⟨settled_of (by decide +kernel), rfl, by decide, by decide +kernel, by decide +kernel⟩, by decide, rfl⟩

/-- A yard whose store runs the commit that retires slot 3, with the writes left. -/
def storing (left : List Segment) : State :=
  { retireOther with
    commit := some retireOther.commitRun
    store := { retireOther.store with highest := 1, running := some ⟨.hostCommit, 1, [.p 0], left, none, .erase⟩ } }

theorem test_hyp_StoreWritesAdvanceTheJob :
    yard.store.running = none ∧
    ((storing [.p 0]).store.running = some ⟨.hostCommit, 1, [.p 0], [.p 0], none, .erase⟩ ∧
      ([] : List Segment).headD .mark ≠ .p 0) ∧
    ((saving [] []).store.running = some ⟨.opsSave, 1, [.ops], [], some yard.opsData, .erase⟩ ∧
      (saving [] []).store.waiting = [] ∧ ([.ops] : List Segment).Nodup ∧
      Segment.mark ∉ [Segment.ops] ∧ (saving [] []).settled) ∧
    ((storing []).store.running = some ⟨.hostCommit, 1, [.p 0], [], none, .erase⟩ ∧
      (storing []).commit = some retireOther.commitRun ∧ (storing []).store.waiting = []) ∧
    ((storing [.p 0]).settled ∧ (storing [.p 0]).nothingWaits) ∧
    (let s := { saving [.ops] [⟨.opsSave, [.ops], 0⟩] with commit := none }
     s.commit = none ∧ s.settled ∧ s.nothingWaits ∧ s.store.waiting ≠ [] ∧
      s.store.highest < 4294967295) :=
  ⟨rfl, ⟨rfl, by decide⟩, ⟨rfl, rfl, by decide, by decide, settled_of (by decide +kernel)⟩,
    ⟨rfl, rfl, rfl⟩, ⟨settled_of (by decide +kernel), nothingWaits_of (by decide)⟩,
    ⟨rfl, settled_of (by decide +kernel), nothingWaits_of (by decide), by decide, by decide⟩⟩

/-! ### Hypotheses met: start-up and staging, clause by clause -/

/-- A pair whose banks hold the given records under the given numbers. -/
def pairOf (seg : Segment) (a b : Option (Nat × Records)) : BankPair :=
  let bank (x : Option (Nat × Records)) : Bank :=
    match x with
    | some (n, r) => Bank.written seg n r
    | none => Bank.erased
  { BankPair.erased with bank0 := bank a, bank1 := bank b }

def savedData (slot : Fin 32) : OpsData := { counts := [(5, 1)], saved := ⟨some (slot, 7), none⟩ }

/-- A part from reset whose store holds the marker of number 3, the yard's tables with a schedule above the marker
in the other bank, and the operations data given. -/
def stored (time : Option SiteTime) (slot : Fin 32) : State :=
  { State.reset with
    clock := { State.reset.clock with time := time }
    store := { Store.new with
      pairs := ((((Store.new.pairs.set 0 (pairOf (.p 0) none (some (2, tables.records (.p 0))))).set 4
        (pairOf (.s 0) (some (3, tables.records (.s 0))) (some (4, tables.records (.s 0))))).set 8
        (pairOf .site (some (2, tables.records .site)) (some (3, tables.records .site)))).set 9
        (pairOf .ops (some (3, .ops (savedData slot))) none)).set 10
        (pairOf .mark (some (3, .marker ⟨.opsSave, 2, [2, 0, 0, 0, 3, 0, 0, 0, 3, 3]⟩)) none) } }

/-- What the last clause of the statement about the end of start-up asks first. -/
def startsUp (s : State) (d : OpsData) : Prop :=
  s.started = false ∧ s.chooseBanks.opsInForce d ∧ s.commit = none ∧
  ∀ st, (s.unit st).phase = .idle ∧ (s.unit st).waiting = false ∧ (s.station st).request = none

theorem opsInForce_of {s : State} {d : OpsData} {k : Bool} (h : (s.pair .ops).current = some k)
    (r : ((s.pair .ops).bank k).records = .ops d) : s.opsInForce d :=
  ⟨fun j hj => by rw [h] at hj; cases hj; exact r, fun hn => by rw [h] at hn; cases hn⟩

theorem test_hyp_StartupEnd_loads :
    (startsUp (stored (some ⟨⟨2024, 335⟩, 60, 0⟩) 2) (savedData 2) ∧
      (let t := after (.storeStartupEnd 0) (stored (some ⟨⟨2024, 335⟩, 60, 0⟩) 2)
       ((t.station .A).governing.bind fun i => tables.schedule[i]) = some morning ∧
        (t.station .B).governing = none)) ∧
    (startsUp (stored none 2) (savedData 2) ∧ (stored none 2).clock.time = none ∧
      (savedData 2).saved.get .A = some (2, 7) ∧ (savedData 2).saved.get .B = none ∧
      { stored none 2 with tables := (stored none 2).chooseBanks.loadTables.neutralize }.activeFor 2 .A = true) ∧
    (startsUp (stored none 9) (savedData 9) ∧
      { stored none 9 with tables := (stored none 9).chooseBanks.loadTables.neutralize }.activeFor 9 .A =
        false) ∧
    (State.reset.chooseBanks.markerData = none ∧
      (stored none 2).chooseBanks.markerData = some ⟨.opsSave, 2, [2, 0, 0, 0, 3, 0, 0, 0, 3, 3]⟩ ∧
      (stored none 2).chooseBanks.markerNumber = 3) := by
  refine ⟨⟨⟨rfl, opsInForce_of (k := false) ?_ ?_, rfl, forallStation (by decide) (by decide)⟩, ?_⟩,
    ⟨⟨rfl, opsInForce_of (k := false) ?_ ?_, rfl, forallStation (by decide) (by decide)⟩, rfl, rfl, rfl, ?_⟩,
    ⟨⟨rfl, opsInForce_of (k := false) ?_ ?_, rfl, forallStation (by decide) (by decide)⟩, ?_⟩, ?_⟩ <;>
  decide +kernel

theorem test_hyp_StartupEnd_chooses :
    (let s := (stored none 2).chooseBanks
     (s.pair .mark).current = some false ∧ (s.pair (.s 0)).current = some false ∧
      (s.pair (.s 0)).stale = true ∧ (s.pair .site).current = some true ∧ (s.pair (.p 0)).spare = false ∧
      (s.pair (.p 1)).current = none ∧ (s.pair (.p 1)).spare = false ∧ s.store.highest = 4) ∧
    (State.reset.chooseBanks.pair .mark).current = none ∧ State.reset.chooseBanks.store.highest = 0 ∧
    ((pairOf (.s 0) (some (5, .none)) (some (4, .none))).judge 3 (.s 0)).spare = true ∧
    ((pairOf (.s 0) (some (5, .none)) none).judge 3 (.s 0)).spare = true := by decide +kernel

theorem test_hyp_StartupEnd_neutralizes :
    let t : Tables := { tables with
      patterns := (tables.patterns.set 4 (some ⟨{ night with fallback := some 4 }, 1⟩)).set 5
        (some ⟨{ night with stages := [[⟨3, .one⟩]] }, 1⟩)
      schedule := tables.schedule.set 7 (some { morning with target := 5 }) }
    (t.neutralize.patterns[(1 : Fin 32)] = some ⟨day, 4⟩ ∧ day.fallback = some 2) ∧
    t.neutralize.patterns[(4 : Fin 32)] = some ⟨night, 1⟩ ∧ t.neutralize.patterns[(5 : Fin 32)] = none ∧
    t.neutralize.schedule[(5 : Fin 64)] = some morning ∧
    t.neutralize.schedule[(7 : Fin 64)] = some { morning with target := 5, enabled := false } := by
  decide +kernel

theorem test_hyp_Staging_judges :
    (firstFailure (patternChecks yard.referenceSites day.raw) = none ∧
      firstFailure (patternChecks yard.referenceSites { day.raw with fallback := 32 }) =
        some ⟨.fieldError, [17]⟩ ∧
      firstFailure (patternChecks yard.referenceSites { day.raw with stages := [[(2, 1)]] }) =
        some ⟨.notInPath, [2]⟩) ∧
    (firstFailure (entryChecks morning.raw) = none ∧
      firstFailure (entryChecks { morning.raw with precedence := 4 }) = some ⟨.fieldError, [31]⟩) ∧
    (firstFailure (siteChecks (site.raw .absent)) = none ∧
      firstFailure (siteChecks { site.raw .absent with slowThreshold := 791 }) = some ⟨.fieldError, [36]⟩) ∧
    siteStaged.stagingLawful ∧ StagedEntry.site site .absent ∈ siteStaged.staging ∧
    yard.stagingLawful ∧ yard.staging = [] :=
  ⟨by decide +kernel, by decide +kernel, by decide +kernel, ⟨by decide, by decide⟩, .head _,
    ⟨by decide, by decide⟩, rfl⟩

theorem test_hyp_Amend_merges :
    (yard.staged (.pattern 2) = none ∧ yard.pattern 2 = some ⟨night, 7⟩ ∧ (night.raw.amend 4 [8]).isSome) ∧
    (let s := { yard with staging := [.pattern 2 (some night)] }
     s.staged (.pattern 2) = some (.pattern 2 (some night))) ∧
    (yard.staged (.schedule 5) = none ∧ yard.entry 5 = some morning ∧ (morning.raw.amend 7 [3]).isSome) ∧
    (let s := { yard with staging := [.schedule 5 (some morning)] }
     s.staged (.schedule 5) = some (.schedule 5 (some morning))) ∧
    ((site.raw .absent).amend 12 [3]).isSome ∧ readAmend [3, 0, 12, 3] ≠ none := by decide +kernel

/-! ### Hypotheses met: requests of the schedule -/

/-- What a request that is not the host's meets at a station, row by row of R52: the request of schedule entry 5. -/
theorem test_hyp_requestTaken :
    ((yard.station .A).request = none ∧ (yard.unit .A).phase = .idle ∧ yard.siteCommitRunning = false) ∧
    (let s := yardWith (unitIn .driving snapDay)
     (s.station .A).request = none ∧ (s.unit .A).phase ≠ .idle ∧
      (s.unit .A).target.map Snapshot.slot = some 1) ∧
    (let s := yardWith (unitIn .driving snapNight)
     (s.unit .A).target.map Snapshot.slot ≠ some 1 ∧ s.activeFor 1 .A = true ∧ s.retiring 1 = false) ∧
    (let s := { yardWith (unitIn .driving snapNight) with commit := some ⟨[(.pattern 1, true)], []⟩ }
     s.retiring 1 = true) ∧
    (let s := { siteStaged with commit := some siteStaged.commitRun }
     (s.unit .A).phase = .idle ∧ s.siteCommitRunning = true) ∧
    (let s := pending ⟨2, .scheduled, .schedule 6⟩
     (s.station .A).request = some ⟨2, .scheduled, .schedule 6⟩ ∧
      Priority.rank .scheduled ≤ Priority.rank .scheduled) ∧
    (let s := pending ⟨2, .protective, .fallback 1⟩
     (s.station .A).request ≠ none ∧ Priority.rank .scheduled < Priority.rank .protective) := by
  decide +kernel

theorem test_hyp_schedule_requests :
    (∀ st, (yard.unit st).waiting = false) ∧
    (yard.governs .A ⟨⟨2024, 335⟩, 60, 0⟩ = some 5 ∧ yard.entry 5 = some morning ∧
      yard.standsInTarget .A 1 = false) ∧
    (yard.governs .A ⟨⟨2024, 334⟩, 60, 0⟩ = none ∧ yard.governs .A ⟨⟨2024, 60⟩, 0, 0⟩ = some 5) ∧
    inService.standsInTarget .A 1 = true ∧ yard.candidates .A ⟨⟨2024, 335⟩, 60, 0⟩ ≠ [] :=
  ⟨forallStation (by decide) (by decide), by decide +kernel⟩

theorem yard_entry {j : Fin 64} {e : Entry} (h : yard.entry j = some e) : j = 5 ∨ j = 6 := by
  have all : ∀ j, yard.entry j ≠ none → j = 5 ∨ j = 6 := by decide +kernel
  exact all j (by rw [h]; nofun)

theorem yard_leads : yard.leads 5 5 ∧ yard.leads 5 6 := by
  refine ⟨fun x y hx hy => ?_, fun x y hx hy => ?_⟩ <;>
  · rw [show yard.entry 5 = some morning by decide +kernel] at hx
    first
      | rw [show yard.entry 5 = some morning by decide +kernel] at hy
      | rw [show yard.entry 6 = some { morning with target := 2, precedence := 1 } by decide +kernel] at hy
    cases hx; cases hy; decide

theorem test_hyp_governs :
    (yard.passed .A 335 60 5 ∧ ∀ j, yard.passed .A 335 60 j → yard.leads 5 j) ∧
    ((∀ j, ¬ yard.passed .A 60 0 j) ∧ yard.passedAnyTime .A 59 5 ∧
      ∀ j, yard.passedAnyTime .A 59 j → yard.leads 5 j) ∧
    (∀ j, ¬ yard.passedAnyTime .A 334 j) := by
  have first : yard.entry 5 = some morning := by decide +kernel
  have leads {j : Fin 64} {e : Entry} (h : yard.entry j = some e) : yard.leads 5 j := by
    rcases yard_entry h with rfl | rfl
    · exact yard_leads.1
    · exact yard_leads.2
  have off {j : Fin 64} {e : Entry} {d : Nat} (h : yard.entry j = some e) (a : 59 < d) (b : d < 335) :
      e.holdsOn d = false := by
    have : e.firstDay = 335 ∧ e.lastDay = 59 := by
      rcases yard_entry h with rfl | rfl
      · rw [first] at h; cases h; decide
      · rw [show yard.entry 6 = some { morning with target := 2, precedence := 1 } by decide +kernel] at h
        cases h; decide
    simp [Entry.holdsOn, this.1, this.2]; omega
  refine ⟨⟨⟨⟨morning, first, rfl, rfl, by decide⟩, morning, first, by decide⟩, ?_⟩, ⟨?_, ⟨morning, first, rfl,
    rfl, by decide⟩, ?_⟩, ?_⟩
  · exact fun j ⟨⟨_, h, _⟩, _⟩ => leads h
  · rintro j ⟨⟨e, h, _, _, on⟩, _⟩
    rw [off h (by decide) (by decide)] at on; cases on
  · exact fun j ⟨_, h, _⟩ => leads h
  · rintro j ⟨e, h, _, _, on⟩
    rw [off h (by decide) (by decide)] at on; cases on

/-! ### Hypotheses met: transitions, clause by clause -/

/-- Station A's transition in a phase, with station B's unit waiting in CLAIMING for `other`, contactor 2 as
given. -/
def awaited (phase : Phase) (r : Row) : State :=
  let s := inPhase phase
  { s with
    rows := s.rows.set 2 r
    units := { s.units with b := { unitIn .claiming ⟨3, 1, other⟩ with waiting := true } } }

theorem test_hyp_Abort_ending :
    (let s := (inPhase .muting).updStation .A fun r => { r with request := some ⟨1, .protective, .fallback 2⟩ }
     s.takes .abort [1] ∧ s.settled ∧ (s.unit .A).closing = none ∧ (s.unit .A).request ≠ none ∧
      (s.unit .B).waiting = false ∧ (s.unit .A).waiting = false ∧ s.siteCommitRunning = false) ∧
    (let s := { inPhase .muting with commit := some siteStaged.commitRun }
     s.siteCommitRunning = true) ∧
    (let s := (inPhase .muting).setFailure .A (some ⟨.monitor, 1, 4, 2, true⟩)
     s.takes .abort [1] ∧ s.settled ∧ s.monitor.failures.get .A ≠ none) ∧
    (∀ phase, phase = .claiming ∨ phase = .muting →
      (awaited phase (row .b .at1)).takes .abort [1] ∧ (awaited phase (row .b .at1)).settled ∧
      ((awaited phase (row .b .at1)).unit .A).closing = none ∧
      ((awaited phase (row .b .at1)).unit .A).request ≠ none ∧
      (∀ w, ((awaited phase (row .b .at1)).station w).request = none) ∧
      (((awaited phase (row .b .at1)).row 0).claim = .tu .A ∧ (awaited phase (row .b .at1)).inMotion 0 = false) ∧
      ((awaited phase (row .b .at1)).unit .B).waiting = true ∧
      ((awaited phase (row .b .at1)).unit .B).request ≠ none ∧ other.listed = [2] ∧
      (awaited phase (row .b .at1)).claimingRefusal .B other = none ∧
      ((awaited phase (row .b .at1)).row 2).claim = .none) ∧
    (let s := awaited .muting { row .b .at1 with claim := .manual }
     s.claimingRefusal .B other = none ∧ (s.row 2).claim ≠ .none) ∧
    (awaited .muting { row .b .at1 with condition := .stuck }).claimingRefusal .B other ≠ none := by
  refine ⟨⟨takes_of (by decide), settled_of (by decide +kernel), by decide⟩, by decide +kernel,
    ⟨takes_of (by decide), settled_of (by decide +kernel), by decide⟩, ?_, by decide +kernel, by decide +kernel⟩
  rintro phase (rfl | rfl) <;>
  exact ⟨takes_of (by decide), settled_of (by decide +kernel), by decide, by decide,
    forallStation (by decide) (by decide), by decide +kernel⟩

/-- What a station is in when its transition ends: MOVING with a prior state, MOVING, or FAULTED. -/
theorem test_hyp_arrayEnded :
    (let s := (inPhase .muting).updStation .A StationRecord.startMoving
     (s.station .A).arrayState = .moving ∧ (s.station .A).prior = some (.unset, none)) ∧
    ((inPhase .muting).station .A).arrayState ≠ .moving ∧
    (((inPhase .driving).handFault .A .stuck).station .A).arrayState = .faulted ∧
    ((unitIn .driving snapNight).closesAs .aborted = .failedNoMove ∧
      ({ unitIn .driving snapNight with moved := [0] } : TransitionRecord).closesAs .aborted = .failedMixed ∧
      (unitIn .driving snapNight).closesAs .stuck = .failedMixed) := by decide +kernel

/-- A state whose unit of station A waits in its queue for contactor 0, besides the pulses it has. -/
def queued (s : State) : State :=
  { s with arbiter := { s.arbiter with
      queue := [⟨0, .two, .tu .A, .commanded, 1, false⟩]
      pulses := s.arbiter.pulses.filter fun p => p.entry.contactor ≠ 0 } }

theorem test_hyp_startsClosing :
    ((queued (driving false)).queuedOf 0 = some ⟨0, .two, .tu .A, .commanded, 1, false⟩ ∧
      ((queued (driving false)).row 0).claim = .tu .A ∧ (queued (driving false)).pulsesOf (.tu .A) = [] ∧
      ((queued (driving false)).unit .A).request ≠ none ∧
      (queued (driving false)).monitor.failures.get .A = none) ∧
    ((driving false).pulsesOf (.tu .A) = [0] ∧ ((driving false).row 0).claim = .tu .A ∧
      (driving false).queuedOf 0 = none ∧ (driving false).inMotion 1 = false) := by decide +kernel

/-- Station A's transition is HELD at a stage of `day` with its rows as given. -/
def heldAt (stage : Nat) (zero one : Sensed) : State :=
  { yard with
    rows := (yard.rows.set 0 { row .a zero with claim := .tu .A }).set 1 { row .ab one with claim := .tu .A }
    units := { yard.units with
      a := { unitIn .held snapDay with moving := [0], muted := ⟨true, false⟩, stage := some stage } } }

theorem test_hyp_stageStarts :
    (let s := heldAt 1 .at2 .at2
     s.takes .continueHeld [1] ∧ s.nothingWaits ∧ (s.unit .A).phase = .held ∧ (s.unit .A).closing = none ∧
      (s.unit .A).stage = some (0 + 1) ∧ (s.unit .A).target = some snapDay ∧ (s.unit .A).timer = some 5000 ∧
      day.stages[0]? = some [⟨0, .one⟩] ∧ s.stageSubset [⟨0, .one⟩] = [0]) ∧
    (let s := heldAt 1 .at1 .at1
     s.stageSubset [⟨0, .one⟩] = [] ∧ day.stages[1]? = some [⟨1, .two⟩] ∧ s.stageSubset [⟨1, .two⟩] = [1] ∧
      (1 : Fin 48) ∉ (s.unit .A).moving ∧ s.holdFor .A 2 [1] = none ∧
      { s with holds := s.holds.set 0 (some ⟨.stage .A 2, true⟩) }.holdFor .A 2 [1] = some 0) ∧
    (let s := heldAt 2 .at1 .at2
     s.stageSubset [⟨1, .two⟩] = [] ∧ day.listed = [0, 1] ∧ s.standsAt 0 .one = true ∧
      s.standsAt 1 .two = true) ∧
    (let s := heldAt 2 .at2 .at2
     s.stageSubset [⟨1, .two⟩] = [] ∧ day.lists 0 = some .one ∧ s.standsAt 0 .one = false) ∧
    ((heldAt 1 .at2 .at2).row 0).claim = .tu .A ∧ (heldAt 1 .at2 .at2).inMotion 0 = false :=
  ⟨⟨takes_of (by decide), nothingWaits_of (by decide), by decide +kernel⟩, by decide +kernel, by decide +kernel,
    by decide +kernel, by decide +kernel⟩

theorem test_hyp_restored :
    (let s := { yard with store := (saving [.ops] []).store }
     s.store.running ≠ none ∧ s.jobsLawful) ∧
    (yard.store.running = none ∧ yard.jobsLawful ∧ yard.store.highest < 4294967295) ∧
    (({ unitIn .driving snapNight with moved := [0] } : TransitionRecord).moved ≠ [] ∧
      (unitIn .driving snapNight).moved = []) ∧
    queueOrdered [⟨0, .two, .tu .A, .protective, 2, false⟩, ⟨1, .two, .tu .B, .commanded, 1, false⟩] :=
  ⟨⟨by decide, by unfold State.jobsLawful; decide⟩, ⟨rfl, fun _ => rfl, by decide⟩, ⟨by decide, rfl⟩,
    by unfold queueOrdered; decide⟩

/-! ### Hypotheses met: arrivals, conflicts and closings -/

/-- The contacts with contactor 0 in conflict. -/
def crossed : List (Bool × Bool) := contactsOf (true, true) (false, true) (true, false)

/-- What the clauses about one configured contactor ask first. -/
def oneJudged (s : State) (contacts : List (Bool × Bool)) : Prop :=
  oneChange s contacts ∧ (s.row 0).path = some .a ∧ (s.row 0).condition ≠ .conflict

/-- Station A's transition drives contactors 0 and 1, both pulses in progress, while it closes. -/
def closingBoth (second : Bool) : State :=
  (withPulses [pulse 0 .two (.tu .A) second, pulse 1 .one (.tu .A) false] (driving second)).updUnit .A fun u =>
    { u with closing := some .breach, outstanding := [0, 1] }

def closingOne (second : Bool) : State := (driving second).updUnit .A fun u => { u with closing := some .breach }

/-- A state whose contactor 0 is in a manual move. -/
def manualMove (s : State) : State :=
  let s := s.updRow 0 fun r => { r with claim := .manual }
  { s with manual := some ⟨0, .two⟩, arbiter := ⟨[], [pulse 0 .two .manual true], 2⟩ }

theorem test_hyp_AcceptedChange_arrives :
    (let s := withCandidate .at2 (queued (driving false))
     oneJudged s turned ∧ s.pulseOf 0 = none ∧ (s.queuedOf 0).map QueueEntry.target = some .two ∧
      placeReading turned 0 = Position.two.sensed ∧ (0 : Fin 48) ∈ (s.unit .A).outstanding ∧
      (s.unit .A).closing = none ∧ (s.row 0).releaseDue = false) := by
  unfold oneJudged oneChange State.accepts
  decide +kernel

theorem test_hyp_AcceptedChange_nothingWaits :
    (withCandidate .at2 (queued (driving false))).nothingWaits ∧
    (withCandidate .conflict (driving false)).nothingWaits ∧
    (withCandidate .conflict (closingBoth false)).nothingWaits ∧
    (withCandidate .conflict (closingOne false)).nothingWaits ∧
    (withCandidate .conflict (manualMove yard)).nothingWaits ∧
    (withCandidate .at2 (manualMove inService)).nothingWaits :=
  ⟨nothingWaits_of (by decide), nothingWaits_of (by decide), nothingWaits_of (by decide),
    nothingWaits_of (by decide), nothingWaits_of (by decide), nothingWaits_of (by decide)⟩

theorem test_hyp_AcceptedChange_conflicts :
    placeReading crossed 0 = .conflict ∧
    (let s := withCandidate .conflict (driving false)
     oneJudged s crossed ∧ s.queuedOf 0 = none ∧ (s.row 0).claim = .tu .A ∧ (s.row 0).releaseDue = false ∧
      s.pulseOf 0 = some (pulse 0 .two (.tu .A) false) ∧ (s.unit .A).phase = .driving ∧
      (s.unit .A).closing = none) ∧
    (let s := withCandidate .conflict (closingBoth false)
     oneJudged s crossed ∧ s.queuedOf 0 = none ∧ (s.unit .A).closing = some .breach ∧
      (s.unit .A).outstanding = [0, 1]) ∧
    (let s := withCandidate .conflict (closingOne false)
     oneJudged s crossed ∧ (s.unit .A).outstanding = [0] ∧ (s.unit .A).request ≠ none ∧
      s.monitor.failures.get .A = none) ∧
    (let s := withCandidate .conflict (manualMove yard)
     oneJudged s crossed ∧ (s.row 0).claim = .manual ∧ s.pulseOf 0 = some (pulse 0 .two .manual true) ∧
      s.queuedOf 0 = none) := by
  unfold oneJudged oneChange State.accepts
  refine ⟨?_, ?_, ?_, ?_, ?_⟩ <;> decide +kernel

theorem test_hyp_ConfirmedMove_arrives :
    (let s := withCandidate .at2 (driving false)
     (s.unit .A).outstanding = [0] ∧ (s.unit .A).closing = none ∧ (s.row 0).releaseDue = false ∧
      (s.unit .A).target = some snapNight ∧ (s.unit .A).stage = some 1 ∧ night.stages[1]? = none) ∧
    (let s := withCandidate .at2 (closingBoth false)
     oneJudged s turned ∧ (s.unit .A).outstanding.filter (fun d => d ≠ 0) ≠ []) ∧
    (let s := withCandidate .at2 (closingOne false)
     oneJudged s turned ∧ (s.unit .A).outstanding.filter (fun d => d ≠ 0) = [] ∧
      (s.unit .A).closing = some .breach ∧ (s.unit .A).request ≠ none) ∧
    (let s := withCandidate .at2 (manualMove inService)
     oneJudged s turned ∧ (s.inServiceLists .A 0) = some .one ∧ (s.row 0).claim = .manual) := by
  unfold oneJudged oneChange State.accepts
  decide +kernel

/-- Station A's transition drives `night` in a breach wait, contactor 0's submission deferred. -/
def deferring (zero : Sensed) : State :=
  { (breached .driving) with
    rows := (breached .driving).rows.set 0 { row .a zero with claim := .tu .A }
    units := (breached .driving).units.upd .A fun u => { u with deferred := some [0] } }

theorem test_hyp_CarrierChanges_go_on :
    ((muting false).nothingWaits ∧ (deferring .at1).nothingWaits) ∧
    ((deferring .at1).awaitsCarrier .A .A = true ∧ (deferring .at1).awaitsCarrier .A .B = false ∧
      ((deferring .at1).unit .A).deferred = some [0] ∧ ((deferring .at1).unit .A).stage = some 1 ∧
      (∀ w, ((deferring .at1).unit .A).muted.get w = true → w ≠ .A →
        ((deferring .at1).station w).carrier = false) ∧
      night.lists 0 = some .two ∧ (deferring .at1).standsAt 0 .two = false ∧
      ((deferring .at1).row 0).claim = .tu .A ∧ (deferring .at1).inMotion 0 = false) ∧
    (deferring .at2).standsAt 0 .two = true ∧
    (let s := (muting false).updUnit .B fun _ => { unitIn .muting snapDay with muted := ⟨true, false⟩ }
     s.nothingWaits ∧ (∀ u, s.awaitsCarrier .A u = true) ∧ (s.unit .B).phase = .muting) :=
  ⟨⟨nothingWaits_of (by decide), nothingWaits_of (by decide)⟩,
    ⟨by decide, by decide, by decide, by decide, forallStation (by decide) (by decide), by decide +kernel⟩,
    by decide +kernel, nothingWaits_of (by decide), forallStation (by decide) (by decide), by decide⟩

/-- Both units wait for carrier off at station A: A's in a breach wait with contactor 0 deferred, B's in MUTING. -/
def awaitingBoth : State :=
  (deferring .at1).updUnit .B fun _ => { unitIn .muting ⟨3, 1, other⟩ with muted := ⟨true, true⟩, moving := [2] }

theorem test_hyp_CarrierChanges_both_go_on :
    (awaitingBoth.station .A).carrier = true ∧ (∀ u, awaitingBoth.awaitsCarrier .A u = true) ∧
    awaitingBoth.nothingWaits ∧ (awaitingBoth.unit .A).target = some snapNight ∧
    (awaitingBoth.unit .B).target = some ⟨3, 1, other⟩ ∧
    (awaitingBoth.unit .A).deferred = some [0] ∧ (awaitingBoth.unit .A).breach ≠ none :=
  ⟨by decide, forallStation (by decide) (by decide), nothingWaits_of (by decide), by decide⟩

/-- Each of them goes on in its turn: A submits what it deferred; B, whose contactor stands already, restores (R112,
R69). -/
theorem test_both_units_take_carrier_off :
    let t := ((awaitingBoth.updStation .A fun r => { r with carrier := false }).event.carrierOffAt .A .A
      |>.carrierOffAt .A .B).settle
    (t.unit .A).breach = none ∧ (t.unit .A).outstanding = [0] ∧ (t.unit .A).drove = true ∧
    (t.unit .B).phase = .settling := by decide +kernel

theorem test_hyp_PulseTimers_close :
    ((closingBoth false).nothingWaits ∧ (closingOne false).nothingWaits ∧ (closingOne true).nothingWaits ∧
      (driving true).nothingWaits) ∧
    ((closingBoth false).pulseOf 0 = some (pulse 0 .two (.tu .A) false) ∧
      ((closingBoth false).unit .A).closing = some .breach ∧
      ((closingBoth false).unit .A).outstanding = [0, 1]) ∧
    (((closingOne false).unit .A).outstanding = [0] ∧ ((closingOne false).unit .A).request ≠ none ∧
      (closingOne false).monitor.failures.get .A = none) ∧
    ((closingOne true).pulseOf 0 = some (pulse 0 .two (.tu .A) true) ∧
      ((closingOne true).row 0).path = some .a ∧ ((closingOne true).unit .A).closing = some .breach) ∧
    ((driving true).row 0).releaseDue = false ∧
    { closingOne false with
      rows := (closingOne false).rows.set 0 { row .a .at1 with claim := .tu .A, releaseDue := true } }.row 0 =
        { row .a .at1 with claim := .tu .A, releaseDue := true } :=
  ⟨⟨nothingWaits_of (by decide), nothingWaits_of (by decide), nothingWaits_of (by decide),
      nothingWaits_of (by decide)⟩, by decide +kernel⟩

/-! ### Hypotheses met: readings, the clock and the store, clause by clause -/

theorem test_hyp_MonitorReceiver_late_byte :
    let s := { receiving [1] with now := 30 }
    s.monitor.rx = some [1] ∧ s.monitor.rxAt + 20 < s.now + 0 := by decide

/-- `afterRun` with contactor 0's row as given. -/
def failing (r : Row) : State := { afterRun 2 with rows := (afterRun 2).rows.set 0 r }

theorem test_hyp_Readings_use_the_fallback :
    (let s := (claiming 2).updStation .A fun r => { r with request := some ⟨1, .scheduled, .schedule 5⟩ }
     s.settled ∧ s.usableFallback .A = some (⟨snapDay, false, .no⟩, 2) ∧ (s.station .A).request ≠ none) ∧
    ((failing (row .a .at1)).settled ∧
      (failing (row .a .at1)).usableFallback .A = some (⟨snapDay, false, .no⟩, 2) ∧
      (failing (row .a .at1)).pattern 2 = some ⟨night, 7⟩ ∧ ((failing (row .a .at1)).unit .A).phase = .idle ∧
      (failing (row .a .at1)).siteCommitRunning = false ∧ ((failing (row .a .at1)).station .A).request = none ∧
      ((failing (row .a .at1)).unit .B).waiting = false ∧
      (failing (row .a .at1)).claimingRefusal .A night = none ∧ night.listed = [0] ∧
      ((failing (row .a .at1)).row 0).claim = .none ∧ (failing (row .a .at1)).standsAt 0 .two = false ∧
      (failing (row .a .at1)).allCarriersOff ((failing (row .a .at1)).pathsOf [0]) = false) ∧
    (failing { row .a .at1 with condition := .stuck }).claimingRefusal .A night ≠ none ∧
    ((failing { row .a .at1 with claim := .tu .B }).claimingRefusal .A night = none ∧
      ((failing { row .a .at1 with claim := .tu .B }).row 0).claim ≠ .none) ∧
    (failing (row .a .at2)).standsAt 0 .two = true := by
  refine ⟨⟨settled_of ?_, ?_⟩, ⟨settled_of ?_, ?_⟩, ?_⟩ <;> decide +kernel

theorem test_hyp_Readings_invalid_and_failed :
    (frameReading ⟨1, 1, 0, 150, 0, 0, 0, 104⟩ = some { reading 150 with valid := false } ∧
      (afterRun 1).settled) ∧
    (let s := verifying [⟨0, 100, 200, 0, 10⟩] false
     s.usableFallback .A = some (⟨snapDay, false, .no⟩, 2) ∧ (s.unit .B).waiting = false ∧
      (s.unit .A).request = some ⟨1, .commanded, .host⟩ ∧ s.siteCommitRunning = false ∧
      { s with commit := some siteStaged.commitRun }.siteCommitRunning = true) :=
  ⟨⟨by decide +kernel, settled_of (by decide +kernel)⟩, by decide +kernel⟩

theorem test_hyp_ClockKeepsTime_requests :
    (∀ st, (beforeMorning.unit st).waiting = false) ∧ beforeMorning.entry 5 = some morning ∧
    beforeMorning.standsInTarget .A 1 = false ∧
    (let s := { inService with clock := beforeMorning.clock }
     s.firstEntry (s.candidates .A ⟨⟨2024, 335⟩, 60, 0⟩) = some 5 ∧ s.standsInTarget .A 1 = true) :=
  ⟨forallStation (by decide) (by decide), by decide +kernel⟩

/-- A store that runs the commit of a site record, with the writes left and the jobs that wait. -/
def storingSite (waiting : List WaitingJob) : State :=
  { siteStaged with
    rows := siteStaged.rows.set 2 Row.reset
    commit := some siteStaged.commitRun
    store := { siteStaged.store with
      highest := 1, waiting := waiting, running := some ⟨.hostCommit, 1, [.site], [], none, .erase⟩ } }

theorem test_hyp_StoreWrites_complete :
    ((saving [] []).store.running.map Job.kind = some .opsSave ∧ (saving [] []).settled) ∧
    ((storingSite []).nothingWaits ∧ (RecordId.site, false) ∈ siteStaged.commitRun.carried ∧
      ((storingSite []).row 2).path = none ∧ site.config[(2 : Fin 48)] = some .b ∧
      ((storingSite []).row 2).sensed = .between) ∧
    (let s := storingSite [⟨.opsSave, [.ops], 0⟩]
     s.nothingWaits ∧ s.commit ≠ none ∧ s.store.highest < 4294967295 ∧ s.store.waiting ≠ [] ∧
      ([.site] : List Segment).Nodup ∧ Segment.mark ∉ [Segment.site]) ∧
    (let s := saving [] [⟨.opsSave, [.ops], 0⟩]
     s.nothingWaits ∧ s.store.running ≠ none ∧ s.store.highest < 4294967295) ∧
    (let s := { saving [] [⟨.hostCommit, [.site], 0⟩, ⟨.opsSave, [.ops], 0⟩] with store :=
        { (saving [] [⟨.hostCommit, [.site], 0⟩, ⟨.opsSave, [.ops], 0⟩]).store with highest := 4294967295 } }
     s.nothingWaits ∧ s.store.waiting.map WaitingJob.kind = [.hostCommit, .opsSave] ∧
      4294967295 ≤ s.store.highest) :=
  ⟨⟨by decide, settled_of (by decide +kernel)⟩, ⟨nothingWaits_of (by decide), by decide +kernel⟩,
    ⟨nothingWaits_of (by decide), by decide⟩, ⟨nothingWaits_of (by decide), by decide⟩,
    ⟨nothingWaits_of (by decide), by decide⟩⟩

/-! ### What a withdrawal and an abandonment leave -/

theorem test_abort_releases_a_withdrawn_queued_contactor :
    let s := { queued (driving false) with
      arbiter := { (queued (driving false)).arbiter with pulses := [pulse 1 .one (.tu .A) false] } }
    ((after (.abort 3 [1]) s).row 0).claim = .none ∧ (after (.abort 3 [1]) s).arbiter.queue = [] ∧
    ((after (.abort 3 [1]) s).unit .A).closing = some .aborted := by decide +kernel

theorem test_writeFault_judges_the_spares_again :
    let s := (storing [.ops]).updPair (.p 0) fun _ =>
      { pairOf (.p 0) (some (1, .none)) none with spare := false }
    ((after (.writeFault 3 .header) s).pair (.p 0)).spare = true ∧
    ((after (.writeFault 3 .header) s).pair (.p 0)).stale = true := by decide +kernel

/-! ### Hypotheses met: checks, immediate driving, validation, boundaries and waiting jobs -/

theorem test_hyp_TransitionStarts_checks :
    ((faulty .stuck .at1).row 0).path = some .a ∧ Path.a.has .A = true ∧
    ((faulty .drifted .at1).row 0).condition = .drifted ∧ other.lists 0 = none ∧
    (let s := inService.updRow 0 fun r => { r with path := some .ab }
     (s.row 0).path = some .ab ∧ Path.ab.has (Station.B).other = true ∧
      (s.station (Station.B).other).inService = some ⟨snapDay, false, .no⟩ ∧ day.lists 0 = some .one ∧
      night.lists 0 = some .two ∧ s.claimingRefusal .B night = some ⟨.incompatible, some 0⟩) ∧
    (∀ c : Fin 48, (yard.row c).condition = .normal ∧ yard.stations.b.inService = none) ∧
    yard.claimingRefusal .A night = none ∧
    (faulty .drifted .at1).claimingRefusal .A night = none := by decide +kernel

theorem test_hyp_TransitionStarts_drives_at_once :
    startable yard 2 ∧ yard.claimingRefusal .A night = none ∧ night.listed = [0] ∧ (yard.row 0).claim = .none ∧
    night.listed.filter (fun c => (night.lists c).any fun p => !yard.standsAt c p) = [0] ∧
    yard.allCarriersOff (yard.pathsOf [0]) = true ∧ yard.nothingWaits := by
  refine ⟨⟨takes_of (by decide), ?_⟩, ?_⟩
  · exact ⟨by decide +kernel, by decide +kernel, by decide +kernel, by decide, by decide, by decide,
      settled_of (by decide +kernel)⟩
  · exact ⟨by decide +kernel, by decide +kernel, by decide +kernel, by decide +kernel, by decide +kernel,
      nothingWaits_of (by decide)⟩

/-- Station A stands in `day`; slot 1 is staged as given, a site record may be staged behind it. -/
def replacing (p : Option Pattern) (more : List StagedEntry) : State :=
  { inService with staging := .pattern 1 p :: more }

/-- A yard that stages the pattern as the replacement of slot 2. -/
def restaged (p : Pattern) : State := { yard with staging := [.pattern 2 (some p)] }

theorem test_validation_names_the_first_failing_record :
    (replacing none []).validate = some ⟨.inUse, [1, 1]⟩ ∧
    (replacing (some other) []).validate = some ⟨.inUse, [1, 1]⟩ ∧
    { inService with staging := [.site Site.blank .absent] }.validate = some ⟨.inUse, [1, 1]⟩ ∧
    { yard with staging := [.site Site.blank .absent] }.validate = some ⟨.referenced, [1, 1]⟩ ∧
    (restaged { night with fallback := some 2 }).validate = some ⟨.referenced, [1, 2]⟩ ∧
    (restaged { night with fallback := some 9 }).validate = some ⟨.referenced, [1, 2]⟩ ∧
    (restaged { night with fallback := some 3 }).validate = some ⟨.referenced, [1, 2]⟩ ∧
    { yard with staging := [.schedule 5 (some { morning with target := 9 })] }.validate =
      some ⟨.referenced, [2, 5]⟩ ∧
    (restaged { night with fallback := some 1 }).validate = none := by decide +kernel

theorem test_hyp_ValidationAdmitsOnlyFittingTables_uses :
    (inService.station .A).inService.map (fun v => v.snap.slot) = some 1 ∧
    (inPhase .muting).units.a.target.map Snapshot.slot = some 2 ∧
    ((pending ⟨1, .scheduled, .schedule 5⟩).station .A).request.map Request.slot = some 1 ∧
    (replacing none []).staging = [.pattern 1 none] ∧ other.station ≠ day.station ∧
    Site.blank.config[(0 : Fin 48)] = none ∧
    retireOther.validate = none ∧ (StagedEntry.pattern 3 none ∈ retireOther.staging) := by decide +kernel

theorem test_commit_versions :
    (restaged night).nextVersion 2 = 8 ∧ (restaged night).nextVersion 9 = 1 ∧
    { restaged night with tables := { tables with
        patterns := tables.patterns.set 2 (some ⟨night, 65535⟩) } }.nextVersion 2 = 1 ∧
    (restaged night).touched = [.p 0] ∧ siteStaged.touched = [.site] ∧
    { yard with staging := [.schedule 16 none, .pattern 31 (some night)] }.touched = [.p 3, .s 1] := by
  decide +kernel

theorem test_usableFallback_is_refused_while_retiring :
    inService.usableFallback .A = some (⟨snapDay, false, .no⟩, 2) ∧
    (let s := { inService with staging := [.pattern 2 none] }
     { s with commit := some s.commitRun }.usableFallback .A = none) ∧
    yard.usableFallback .A = none := by decide +kernel

/-- The state's last boundary stands at the time given. -/
def boundaryAt (n : Nat) (s : State) : State := { s with clock := { s.clock with boundary := n } }

theorem test_hyp_ClockKeepsTime_pulses_that_make_a_boundary :
    (let s := clocked (some ⟨⟨2024, 335⟩, 59, 59⟩) .tref 0 (some 0)
     s.settled ∧ s.clock.source = .tref ∧ s.clock.boundary + 500 ≤ s.now + 500 ∧ s.started = true ∧
      (⟨⟨2024, 335⟩, 59, 59⟩ : SiteTime).next = some ⟨⟨2024, 335⟩, 60, 0⟩) ∧
    (let s := clocked (some ⟨⟨2099, 365⟩, 1439, 59⟩) .internal 2 (some 0)
     s.settled ∧ s.clock.source = .internal ∧ s.clock.boundary + 500 ≤ s.now + 900 ∧
      3 ≤ s.clock.judgePulse (s.now + 900) ∧ (⟨⟨2099, 365⟩, 1439, 59⟩ : SiteTime).next = none) ∧
    (let s := boundaryAt 800 (clocked none .internal 2 (some 0))
     s.settled ∧ s.clock.source = .internal ∧ s.now + 1000 < s.clock.boundary + 500 ∧
      3 ≤ s.clock.judgePulse (s.now + 1000)) :=
  ⟨⟨settled_of (by decide +kernel), by decide⟩, ⟨settled_of (by decide +kernel), by decide⟩,
    ⟨settled_of (by decide +kernel), by decide⟩⟩

theorem test_trefPulse_makes_a_minute_boundary :
    let s := after (.trefPulse 700) (clocked (some ⟨⟨2024, 335⟩, 59, 59⟩) .tref 0 (some 0))
    s.clock.time = some ⟨⟨2024, 335⟩, 60, 0⟩ ∧ s.clock.lastPulse = some 700 ∧ s.clock.boundary = 700 ∧
    (s.station .A).governing = some 5 := by decide +kernel

theorem test_hyp_StoreWrites_with_a_waiting_unit :
    (let s := { storing [] with units := { yard.units with a := { unitIn .claiming snapNight with waiting := true } } }
     s.store.running.map Job.kind = some .hostCommit ∧ s.commit = some retireOther.commitRun ∧
      s.store.waiting = [] ∧ ∀ st, (s.unit st).waiting = true → (s.unit st).moved = []) ∧
    (let s := { retireOther with
        commit := some retireOther.commitRun
        store := { (saving [.ops] [⟨.hostCommit, [.p 0], 0⟩]).store with highest := 1 } }
     s.store.running.map Job.kind = some .opsSave ∧ s.settled ∧ s.nothingWaits ∧ s.commit ≠ none ∧
      s.store.waiting.map WaitingJob.kind = [.hostCommit] ∧ s.store.highest < 4294967295 ∧
      (after (.writeFault 3 .header) s).commit = s.commit ∧
      (after (.writeFault 3 .header) s).store.running.map Job.kind = some .hostCommit) :=
  ⟨⟨by decide, rfl, rfl, forallStation (fun _ => rfl) (by decide)⟩,
    ⟨by decide, settled_of (by decide +kernel), nothingWaits_of (by decide), by decide +kernel⟩⟩

/-- A yard whose store writes the segment P0 for the commit that retires slot 3, shown at a step. -/
def storingAt (step : WriteStep) : State :=
  { storing [.p 0] with
    store := { (storing [.p 0]).store with running := some ⟨.hostCommit, 1, [.p 0], [.p 0], none, step⟩ } }

theorem test_hyp_steps_of_a_write_come_in_order :
    (storingAt .header).takes .readStore [] ∧
    (∀ job, (storingAt .header).store.running = some job → WriteStep.code .records < WriteStep.code job.step) ∧
    ((storingAt .records).settled ∧ (storingAt .records).nothingWaits ∧
      ∀ job, (storingAt .records).store.running = some job →
        WriteStep.code job.step ≤ WriteStep.code .records) :=
  ⟨takes_of (by decide), fun _ h => by cases h; decide,
    settled_of (by decide +kernel), nothingWaits_of (by decide), fun _ h => by cases h; decide⟩

/-- Whatever the free value, a write shown at HEADER is not shown at an earlier step again (R181). -/
theorem test_readStore_never_shows_an_earlier_step :
    (storingAt .header).lookAtStore.store.running.map Job.step = some .header := by
  obtain ⟨x, h, e⟩ := (storingAt .header).lookAtStore_spec
  have := h _ rfl
  rw [e]
  cases x <;> first | rfl | exact absurd this (by decide)

theorem test_writeFault_in_an_earlier_step_cannot_come :
    (after (.writeFault 3 .records) (storingAt .header)).store = (storingAt .header).store ∧
    (after (.writeFault 3 .header) (storingAt .header)).store.hostStatus = .failed (some 1) ∧
    (after (.segmentWriteDone 3) (storingAt .header)).store.running.map Job.step = some .erase := by
  decide +kernel

/-! ### The order of grants within an event -/

/-- One place for pulses. Unit A, SCHEDULED, waits in MUTING to move contactor 0 and unit B, PROTECTIVE, to move
contactor 1, both for carrier off at station A. -/
def mutingBoth : State :=
  { yard with
    tables := { tables with site := { site with concurrency := 1 } }
    rows := (yard.rows.set 0 { row .a .at1 with claim := .tu .A }).set 1 { row .ab .at2 with claim := .tu .B }
    units :=
      ⟨{ unitIn .muting snapNight with priority := some .scheduled, moving := [0], muted := ⟨true, false⟩ },
        { unitIn .muting ⟨3, 1, { other with stages := [[⟨1, .one⟩]] }⟩ with
          priority := some .protective, moving := [1], muted := ⟨true, true⟩ }⟩ }

/-- The place goes to the entry that is submitted first, whatever the priority of the one behind it (R90). -/
theorem test_each_submission_of_an_event_has_its_grant_attempt :
    let t := ((mutingBoth.event.carrierOffAt .A .A).carrierOffAt .A .B).settle
    t.arbiter.pulses.map (fun p => p.entry.contactor) = [0] ∧
    t.arbiter.queue.map (fun q => q.contactor) = [1] := by decide +kernel

/-! ### Single commands -/

theorem test_feedbackScan_confirms_the_move :
    ((after (.feedbackScan 3 turned []) (withCandidate .at2 (driving false))).row 0).lastTravel = some 10 ∧
    ((after (.feedbackScan 3 turned []) (withCandidate .at2 (driving false))).unit .A).phase = .settling ∧
    ((after (.feedbackScan 3 turned []) (withCandidate .at2 (driving false))).station .A).arrayState =
      .inPattern := by decide +kernel

theorem test_feedbackScan_faults_a_drift :
    ((after (.feedbackScan 3 turned []) (withCandidate .at2 inService)).station .A).faultReason = some .drift ∧
    (after (.feedbackScan 3 turned []) (withCandidate .at2 inService)).monitor.supervised.a = false := by
  decide +kernel

theorem test_travelLimitRetry_grants_the_second_try :
    (after (.travelLimitRetry 3 0) (driving false)).arbiter.pulses.map (fun p => (p.entry.second, p.granted)) =
      [(true, 800)] := by decide +kernel

/-- A pulse granted to a transition, its second try too, counts for the transition's ending (R118). -/
theorem test_grants_count_for_the_ending :
    let undriven := (driving false).updUnit .A fun u => { u with drove := false }
    ((after (.travelLimitRetry 3 0) undriven).unit .A).drove = true ∧
    undriven.grantedTo (after (.coilDriveEnd 0 0) undriven) .A = false ∧
    ((after (.coilDriveEnd 0 0) undriven).unit .A).drove = false := by decide +kernel

/-- A recorded release waits for the end of the contactor's pulse (R15, R16). -/
theorem test_a_claim_lasts_while_its_pulse_does :
    let s := (driving false).updRow 0 fun r => { r with releaseDue := true }
    ((s.event.carryRelease 0).s.row 0).claim = .tu .A ∧
    ((({ s with arbiter := yard.arbiter } : State).event.carryRelease 0).s.row 0).claim = .none := by decide +kernel

theorem test_travelLimitStuck_ends_the_transition :
    ((after (.travelLimitStuck 3 0) (driving true)).row 0).condition = .stuck ∧
    ((after (.travelLimitStuck 3 0) (driving true)).station .A).arrayState = .faulted := by decide +kernel

theorem test_coilDriveEnd_releases_the_coil :
    (after (.coilDriveEnd 0 0) (driving false)).pins.coils = [] ∧
    (after (.coilDriveEnd 0 0) (driving false)).now = 100 := by decide +kernel

theorem test_carrierChange_starts_driving :
    ((after (.carrierChangeAccepted 3 .A false) (muting false)).unit .A).phase = .driving ∧
    (after (.carrierChangeAccepted 3 .A false) (muting false)).pins.coils = [(0, .two)] := by decide +kernel

theorem test_transition_confirms_and_restores :
    ((after (.transition 3 [1, 1]) yard).unit .A).phase = .settling ∧
    (after (.transition 3 [1, 1]) yard).pins.tprm = ⟨true, false⟩ ∧
    (after (.transition 3 [1, 1]) yard).pins.pstp = ⟨2, 1⟩ := by decide +kernel

theorem test_manualMove_energizes_the_coil :
    (after (.manualMove 3 [1, 1]) heldOff).pins.coils = [(1, .one)] := by decide +kernel

theorem test_monitorFrame_fails_the_station :
    ((after (.monitorFrame 3 (frame false)) (noFallback 2)).station .A).faultReason = some .monitor ∧
    (after (.monitorFrame 3 (frame false)) (noFallback 2)).pins.attn = true := by decide +kernel

theorem test_internalBoundary_fires_the_schedule :
    (after (.internalBoundary 3) beforeMorning).lastFired[(6 : Fin 64)] = some ⟨2024, 335⟩ ∧
    ((after (.internalBoundary 3) beforeMorning).station .A).governing = some 5 ∧
    ((after (.internalBoundary 3) beforeMorning).unit .A).target = some snapDay := by decide +kernel

theorem test_markerWriteDone_completes_the_commit :
    (after (.markerWriteDone 3) (storing [])).pattern 3 = none ∧
    (after (.markerWriteDone 3) (storing [])).staging = [] ∧
    (after (.markerWriteDone 3) (storing [])).store.hostStatus = .completed 1 := by decide +kernel

theorem test_writeFault_abandons_the_commit :
    (after (.writeFault 3 .header) (storing [.p 0])).staging = [.pattern 3 none] ∧
    (after (.writeFault 3 .header) (storing [.p 0])).commit = none ∧
    (after (.writeFault 3 .header) (storing [.p 0])).store.hostStatus = .failed (some 1) := by decide +kernel

/-- The external reset that cuts off a power-on reset's start-up drops its grant (log entry 47). -/
theorem test_externalReset_drops_a_grant_to_come :
    (after (.storeStartupEnd 3) (after (.externalReset 3 0) State.reset)).link.authority = false ∧
    (after (.storeStartupEnd 3) (after (.externalReset 3 0) ready)).link.authority = true := by decide +kernel

theorem test_storeStartupEnd_of_a_new_part :
    (after (.storeStartupEnd 3) State.reset).link.authority = true ∧
    (after (.storeStartupEnd 3) State.reset).started = true ∧
    (after (.storeStartupEnd 3) State.reset).pins.attn = true := by decide +kernel

theorem test_readStation_sends_a_frame :
    (after (.readStation 3 [2]) ready).pins.ldir = true ∧
    ((after (.readStation 3 [2]) ready).link.tx.take 1) = [0x7E] ∧
    byteSum ((after (.readStation 3 [2]) ready).link.tx.drop 1) % 256 = 0 := by decide +kernel

end Sys2Proof.Tests
end

section
/-! PROOFS. CLEAR_CONTACTOR_FAULT (R18, O29): which rows a clear is refused for, and what the request leaves. -/

namespace Sys2Proof.Proofs
open Sys2Proof Sys2Proof.Machine

/-! ### A number sent in a field -/

theorem finOf_eq_none {n v : Nat} (h : n ≤ v) : finOf n v = none := by
  simpa [finOf] using h

@[simp] theorem finOf_val {n : Nat} (c : Fin n) : finOf n c.val = some c := by
  simp [finOf]

/-! ### The rows a clear is for -/

theorem clearable_iff (r : Row) :
    r.clearable = true ↔ r.path ≠ none ∧
      (r.condition = .stuck ∨ r.condition = .drifted ∨ (r.condition = .conflict ∧ r.sensed ≠ .conflict)) := by
  unfold Row.clearable
  rw [Bool.and_eq_true, Option.isSome_iff_ne_none]
  refine and_congr_right fun _ => ?_
  cases r.condition <;> simp

/-- The refused rows of R18 are the ones that a clear leaves. -/
theorem clearable_eq_false_iff (r : Row) :
    r.clearable = false ↔ r.path = none ∨ r.condition = .normal ∨ r.condition = .slow ∨
      (r.condition = .conflict ∧ r.sensed = .conflict) := by
  rw [← Bool.not_eq_true, clearable_iff, Classical.not_and_iff_not_or_not, Classical.not_not]
  refine or_congr_right ?_
  cases r.condition <;> simp

/-! ### The Contactor Supervisor's answer, a branch at a time -/

theorem clearContactorFault_outOfRange {b : Byte} (h : 47 < b.toNat) (s : State) :
    State.clearContactorFault [b] s = (s, ⟨.fieldError, [0]⟩) := by
  have hc : finOf 48 (fieldAt [b] 0) = none := finOf_eq_none h
  simp only [State.clearContactorFault, hc]
  rfl

theorem clearContactorFault_of_contactor {b : Byte} {c : Fin 48} (h : b.toNat = c.val) (s : State) :
    State.clearContactorFault [b] s =
      if (s.row c).clearable then
        ({ s with rows := s.rows.set c { s.row c with condition := .normal } }, ⟨.ok, []⟩)
      else (s, ⟨.wrongState, []⟩) := by
  have hc : finOf 48 (fieldAt [b] 0) = some c := (congrArg (finOf 48) h).trans (finOf_val c)
  simp only [State.clearContactorFault, hc]
  rfl

/-! ### The request -/

/-- The request leaves the state its owner answers with, the time run on and the reply being sent. -/
theorem exec_clearContactorFault {s t : State} {f : List Byte} {reply : Reply} {dt : Nat}
    (h : s.takes .clearContactorFault f)
    (howner : State.clearContactorFault f (s.elapse dt) = (t.elapse dt, reply)) :
    exec (.clearContactorFault dt f) s = .next (t.answered dt .clearContactorFault reply) := by
  calc exec (.clearContactorFault dt f) s
      = answerQuiet .clearContactorFault State.clearContactorFault f (s.elapse dt) := exec_of_takes h dt
    _ = .next (t.answered dt .clearContactorFault reply) := by
      rw [answerQuiet_of_takes h, howner]
      rfl

/-- Settles O29, by the branches of the owner's answer: each row of R18's table is one of them, and none reads
whether a commit is running. -/
theorem clearContactorFaultFollowsItsTable : Obligations.ClearContactorFaultFollowsItsTable := by
  refine ⟨rfl, fun dt b s htakes => ⟨fun hout => ?_, fun c hbc => ⟨fun hrefused => ?_, fun hpath hcond => ?_⟩⟩⟩
  · exact exec_clearContactorFault htakes (clearContactorFault_outOfRange hout _)
  · have hrow : ((s.elapse dt).row c).clearable = false := (clearable_eq_false_iff _).mpr hrefused
    exact exec_clearContactorFault htakes (by simp [clearContactorFault_of_contactor hbc, hrow])
  · have hrow : ((s.elapse dt).row c).clearable = true := (clearable_iff _).mpr ⟨hpath, hcond⟩
    exact exec_clearContactorFault htakes (by rw [clearContactorFault_of_contactor hbc, if_pos hrow]; rfl)

end Sys2Proof.Proofs
end

section
/-! PROOFS. CLEAR_HOLD (R104, O31): a request whose owner answers at once, and what clearing hold points leaves. -/

namespace Sys2Proof.Proofs
open Sys2Proof Sys2Proof.Machine

/-! ### A request whose owner leaves transitions, pulses and supervision alone -/

/-- Such a request leaves the state its owner answers with, the time run on and the reply being sent. -/
theorem exec_of_answerQuiet {r : Req} {owner : List Byte → State → State × Reply} {s t : State}
    {f : List Byte} {reply : Reply} {dt : Nat} (h : s.takes r f)
    (hserve : (s.elapse dt).serve r f = answerQuiet r owner f (s.elapse dt))
    (howner : owner f (s.elapse dt) = (t.elapse dt, reply)) :
    exec (r.command dt f) s = .next (t.answered dt r reply) := by
  calc exec (r.command dt f) s
      = answerQuiet r owner f (s.elapse dt) := (exec_of_takes h dt).trans hserve
    _ = .next (t.answered dt r reply) := by
      rw [answerQuiet_of_takes h, howner]
      rfl

/-! ### The answer to CLEAR_HOLD, a branch at a time -/

theorem clearHold_of_all {b : Byte} (h : b.toNat = 0xFF) (s : State) :
    State.clearHold [b] s = ({ s with holds := Vector.replicate 4 none }, ⟨.ok, []⟩) :=
  if_pos h

theorem clearHold_of_point {b : Byte} {i : Fin 4} (h : b.toNat = i.val) (s : State) :
    State.clearHold [b] s = ({ s with holds := s.holds.set i none }, ⟨.ok, []⟩) := by
  have hne : fieldAt [b] 0 ≠ 0xFF := show b.toNat ≠ 0xFF by omega
  have hi : finOf 4 (fieldAt [b] 0) = some i := (congrArg (finOf 4) h).trans (finOf_val i)
  simp only [State.clearHold, if_neg hne, hi]
  rfl

theorem clearHold_outOfRange {b : Byte} (h : 3 < b.toNat) (hne : b.toNat ≠ 0xFF) (s : State) :
    State.clearHold [b] s = (s, ⟨.fieldError, [0]⟩) := by
  have hb : fieldAt [b] 0 ≠ 0xFF := hne
  have hi : finOf 4 (fieldAt [b] 0) = none := finOf_eq_none h
  simp only [State.clearHold, if_neg hb, hi]
  rfl

/-! ### The request -/

/-- Settles O31, by the branches of the owner's answer: a point, all points, or a byte that names none. No branch
reads what the points held. -/
theorem clearHoldEmptiesPoints : Obligations.ClearHoldEmptiesPoints := by
  refine ⟨rfl, fun dt b s htakes => ⟨fun i hpoint => ?_, fun hall => ?_, fun hout hne => ?_⟩⟩
  · exact exec_of_answerQuiet htakes rfl (clearHold_of_point hpoint (s.elapse dt))
  · exact exec_of_answerQuiet htakes rfl (clearHold_of_all hall (s.elapse dt))
  · exact exec_of_answerQuiet htakes rfl (clearHold_outOfRange hout hne (s.elapse dt))

end Sys2Proof.Proofs
end
